-- ==== Sys2Proof/Word.lean ====
section
/-! DEFINITION. The byte, and the table of fixed length in which the model holds a fixed number of like things
(8 links, 128 points, 12 lines, ...). A table carries the proof of its length, so that no access can miss. -/

namespace Sys2Proof

/-- One byte of a port transaction or of the image area. -/
abbrev Byte := BitVec 8

/-- `n` values of one kind, numbered from 0. -/
structure Tab (n : Nat) (α : Type) where
  list : List α
  len  : list.length = n
deriving DecidableEq, Repr

variable {n : Nat} {α β : Type}

/-- The value numbered `i`. -/
def Tab.get (t : Tab n α) (i : Fin n) : α :=
  t.list[i.val]'(by rw [t.len]; exact i.isLt)

/-- The table with the value numbered `i` replaced. -/
def Tab.set (t : Tab n α) (i : Fin n) (a : α) : Tab n α :=
  ⟨t.list.set i.val a, by rw [List.length_set, t.len]⟩

/-- The table whose value numbered `i` is `f i`. -/
def Tab.ofFn (f : Fin n → α) : Tab n α :=
  ⟨List.ofFn f, List.length_ofFn⟩

/-- The table holding `a` everywhere. -/
def Tab.const (n : Nat) (a : α) : Tab n α :=
  ⟨List.replicate n a, List.length_replicate⟩

/-- Every value replaced, each by a function of its number and itself. -/
def Tab.mapIdx (f : Fin n → α → β) (t : Tab n α) : Tab n β :=
  Tab.ofFn fun i => f i (t.get i)

/-- The value numbered `i` changed by `f`. -/
def Tab.modify (t : Tab n α) (i : Fin n) (f : α → α) : Tab n α :=
  t.set i (f (t.get i))

/-- The numbers 0 to n - 1 in order: how a table is scanned. -/
def indices (n : Nat) : List (Fin n) := List.finRange n

/-- Whether every number satisfies `p`. -/
def allIdx (n : Nat) (p : Fin n → Bool) : Bool := (indices n).all p

/-- Whether some number satisfies `p`. -/
def anyIdx (n : Nat) (p : Fin n → Bool) : Bool := (indices n).any p

/-- The sum of `f` over the numbers 0 to n - 1. -/
def sumIdx (n : Nat) (f : Fin n → Nat) : Nat := ((indices n).map f).sum

/-- The number `k` as an index below `n`, if it is one. -/
def toIdx (n k : Nat) : Option (Fin n) :=
  if h : k < n then some ⟨k, h⟩ else none

end Sys2Proof
end

