-- ==== Sys2Proof/Config.lean ====
section
/-! DEFINITION. What the part is built with (fixed counts and limits of the spec), the two values the model fixes where
the spec gives none, and the free values the spec leaves open. -/

namespace Sys2Proof.Config

/-- What a byte of the image area that nothing has written reads as. DESIGN CHOICE, unsafe (log entry 6): the spec says
only that the area of a part as delivered fails the judgement of R178. -/
def erasedByte : Byte := 0xFF

/-- FREE VALUES: the byte the part drives on SDO in place of the k-th byte for which the spec states none (the bytes
after byte 0 of a transaction whose command byte names no command; R161 gives them for known commands only).
Nothing can be proved about it (log entry 3). -/
opaque freeByte : Nat → Byte

/-- Size of the image area in bytes (R177). -/
def imageSize : Nat := 4096

/-- Largest value of an energy or mass accumulator of a period bank, 48 bits (R145). -/
def bankMax : Nat := 281474976710655

/-- Largest energy of one carrier in a residence queue record, 40 bits (R102). -/
def recordMax : Nat := 1099511627775

/-- The no-figure value of a specific energy (R133). -/
def seNone : Nat := 16777215

/-- The clamp of a specific energy (R134). -/
def seClamp : Nat := 16777214

/-- Modulus of a meter register: 24 bits (R73). -/
def pointModulus : Nat := 16777216

/-- Modulus of a gob or packed counter: 32 bits (R73). -/
def lineModulus : Nat := 4294967296

/-- Argument bytes a transaction decoder keeps (R160). -/
def keptArgs : Nat := 97

/-- Bytes in a snapshot buffer (R160). -/
def bufferSize : Nat := 64

end Sys2Proof.Config
end

