-- ==== Sys2Proof/Syntax.lean ====
section
/-! DEFINITION. The commands of the block: one constructor of `Instr` per row of spec/opcode_table.json. A transaction of a
client port carries the port it came on and EVERY whole byte received after its command byte, right or wrong in number (a
READ_STATUS may carry a stretch of its transaction, and a READ_BANK_RECORD says which moment of a completion with a swap it
falls in); an event carries what the pins show at its arrival. -/

namespace Sys2Proof

/-- The three client ports (00_scope.md 1.2). -/
inductive Port where
  | m | f | e
deriving DecidableEq, Repr

/-- One transaction on a port, after its command byte (R161): the whole bytes received from the fall of CS_N to its rise.
A byte cut short by the rise is not among them. -/
structure Transfer where
  port  : Port
  bytes : List Byte
deriving DecidableEq, Repr

/-- How much of its transaction a READ_STATUS carries. R162 lets the transaction go on for as long as CS_N stays low and forms
the status byte afresh for each byte, so it may come in several stretches with other commands and events between them; the
bytes of one stretch are formed at one moment (log entry 1). -/
inductive Stretch where
  /-- From the fall of CS_N to its rise. -/
  | whole
  /-- From the fall of CS_N: the command byte and the bytes after it so far; CS_N stays low. -/
  | first
  /-- Further bytes while CS_N stays low. -/
  | further
  /-- Further bytes, if any, up to the rise of CS_N. -/
  | last
deriving DecidableEq, Repr

/-- What a READ_STATUS carries: a port, the bytes received in this stretch (after the command byte, where the stretch begins with
it), and which stretch it is. -/
structure StatusRead where
  transfer : Transfer
  part     : Stretch
deriving DecidableEq, Repr

/-- The moment of a READ_BANK_RECORD: the arrival of its last selector byte (R155). -/
inductive ReadMoment where
  /-- In its turn: where a completion with a swap waits behind it or has gone before it, before both or after both. -/
  | inTurn
  /-- Where a completion to be followed by a swap is due, between the two: after the interval is added, before the swap. -/
  | beforeSwap
deriving DecidableEq, Repr

/-- What a READ_BANK_RECORD carries: a port with the bytes after the command byte, and its moment (R155; log entry 32). -/
structure BankRead where
  transfer : Transfer
  moment   : ReadMoment
deriving DecidableEq, Repr

/-- One word on a meter link (13.1): sixteen data bits, the flags S, E and P, and the level of the stop bit as sampled. -/
structure LinkWord where
  data : BitVec 16
  s    : Bool
  e    : Bool
  p    : Bool
  stop : Bool
deriving DecidableEq, Repr

/-- The commands and events of the part, one per row of the table. -/
inductive Instr where
  | readStatus (t : StatusRead)
  | readId (t : Transfer)
  | readNotices (t : Transfer)
  | readResult (t : Transfer)
  | readBankRecord (t : BankRead)
  | readPointState (t : Transfer)
  | readQueue (t : Transfer)
  | readLinkStatus (t : Transfer)
  | readStagedEntry (t : Transfer)
  | readActiveEntry (t : Transfer)
  | readStore (t : Transfer) (wpN : Bool)
  | clearNotices (t : Transfer)
  | setNoticeMask (t : Transfer)
  | setFurnaceState (t : Transfer)
  | setLag (t : Transfer)
  | lineTally (t : Transfer)
  | setLineState (t : Transfer)
  | writeStagedEntry (t : Transfer)
  | commit (t : Transfer)
  | discardStaged (t : Transfer)
  | startAccounting (t : Transfer)
  | stopAccounting (t : Transfer)
  | closePeriod (t : Transfer)
  | accountingReset (t : Transfer)
  | clearLinkCounters (t : Transfer)
  | injectWords (t : Transfer)
  | saveImage (t : Transfer)
  | loadImage (t : Transfer)
  | setStoreProtect (t : Transfer) (wpN : Bool)
  | unknown (code : Byte) (t : Transfer)
  | imark (pmark : Bool)
  | linkWord (link : Fin 8) (w : LinkWord)
  | pinReset
  | startUpReadDone
  | imageByteWrite
  | saveComplete
  | loadComplete
  | reconciliationStage
  | conversionStage
  | residenceQueueStage
  | furnaceSplit
  | poolSplit
  | totalsStage
  | completion
deriving DecidableEq, Repr

/-- The 29 named commands of the client ports (R164). -/
inductive Command where
  | readStatus | readId | readNotices | readResult | readBankRecord | readPointState | readQueue | readLinkStatus
  | readStagedEntry | readActiveEntry | readStore
  | clearNotices | setNoticeMask | setFurnaceState | setLag | lineTally | setLineState | writeStagedEntry | commit
  | discardStaged | startAccounting | stopAccounting | closePeriod | accountingReset | clearLinkCounters | injectWords
  | saveImage | loadImage | setStoreProtect
deriving DecidableEq, Repr

end Sys2Proof
end

