-- ==== Sys2Proof/Decode.lean ====
section
/-! DEFINITION. From bits to commands. spec/opcode_table.json gives no row any bits, so `decodeTableWord` answers none. What
the spec does encode is decoded here: the SPI transactions of the client ports (13.4, R161) and the words of a meter link
(13.1). -/

namespace Sys2Proof

/-- The command byte of each command (13.4). -/
def commandCode : Command → Byte
  | .readStatus => 0x01
  | .readId => 0x02
  | .readNotices => 0x03
  | .readResult => 0x04
  | .readBankRecord => 0x05
  | .readPointState => 0x06
  | .readQueue => 0x07
  | .readLinkStatus => 0x08
  | .readStagedEntry => 0x09
  | .readActiveEntry => 0x0A
  | .readStore => 0x0B
  | .clearNotices => 0x20
  | .setNoticeMask => 0x21
  | .setFurnaceState => 0x30
  | .setLag => 0x31
  | .lineTally => 0x40
  | .setLineState => 0x41
  | .writeStagedEntry => 0x50
  | .commit => 0x51
  | .discardStaged => 0x52
  | .startAccounting => 0x60
  | .stopAccounting => 0x61
  | .closePeriod => 0x62
  | .accountingReset => 0x63
  | .clearLinkCounters => 0x70
  | .injectWords => 0x71
  | .saveImage => 0x80
  | .loadImage => 0x81
  | .setStoreProtect => 0x82

/-- Every command, in the order of the table of 13.4. -/
def allCommands : List Command :=
  [.readStatus, .readId, .readNotices, .readResult, .readBankRecord, .readPointState, .readQueue, .readLinkStatus,
   .readStagedEntry, .readActiveEntry, .readStore, .clearNotices, .setNoticeMask, .setFurnaceState, .setLag, .lineTally,
   .setLineState, .writeStagedEntry, .commit, .discardStaged, .startAccounting, .stopAccounting, .closePeriod,
   .accountingReset, .clearLinkCounters, .injectWords, .saveImage, .loadImage, .setStoreProtect]

/-- The command a command byte names, if any: "A command byte not in this table gives UNKNOWN" (13.4). -/
def commandOfCode (b : Byte) : Option Command :=
  allCommands.find? fun c => commandCode c == b

/-- The command of a port whose command byte is `c`, with the bytes that follow and the level of WP_N. -/
def instrOfCommand (c : Command) (t : Transfer) (wpN : Bool) : Instr :=
  match c with
  | .readStatus => .readStatus ⟨t, .whole⟩
  | .readId => .readId t
  | .readNotices => .readNotices t
  | .readResult => .readResult t
  | .readBankRecord => .readBankRecord ⟨t, .inTurn⟩
  | .readPointState => .readPointState t
  | .readQueue => .readQueue t
  | .readLinkStatus => .readLinkStatus t
  | .readStagedEntry => .readStagedEntry t
  | .readActiveEntry => .readActiveEntry t
  | .readStore => .readStore t wpN
  | .clearNotices => .clearNotices t
  | .setNoticeMask => .setNoticeMask t
  | .setFurnaceState => .setFurnaceState t
  | .setLag => .setLag t
  | .lineTally => .lineTally t
  | .setLineState => .setLineState t
  | .writeStagedEntry => .writeStagedEntry t
  | .commit => .commit t
  | .discardStaged => .discardStaged t
  | .startAccounting => .startAccounting t
  | .stopAccounting => .stopAccounting t
  | .closePeriod => .closePeriod t
  | .accountingReset => .accountingReset t
  | .clearLinkCounters => .clearLinkCounters t
  | .injectWords => .injectWords t
  | .saveImage => .saveImage t
  | .loadImage => .loadImage t
  | .setStoreProtect => .setStoreProtect t wpN

/-- The command spelt by the whole bytes of one transaction on port `p`, with WP_N at level `wpN`; none for a transaction
in which no whole byte was received, which changes nothing (R161). -/
def decodeTransaction (p : Port) (wpN : Bool) : List Byte → Option Instr
  | [] => none
  | b :: bytes =>
    match commandOfCode b with
    | some c => some (instrOfCommand c ⟨p, bytes⟩ wpN)
    | none => some (.unknown b ⟨p, bytes⟩)

/-- The command byte and transfer of a term that is one whole transaction of a port in its turn; none for a stretch of a
READ_STATUS, for a READ_BANK_RECORD between a completion and its swap, and for an event. -/
def portCommand : Instr → Option (Byte × Transfer)
  | .readStatus ⟨t, .whole⟩ => some (commandCode .readStatus, t)
  | .readStatus ⟨_, .first⟩ => none
  | .readStatus ⟨_, .further⟩ => none
  | .readStatus ⟨_, .last⟩ => none
  | .readId t => some (commandCode .readId, t)
  | .readNotices t => some (commandCode .readNotices, t)
  | .readResult t => some (commandCode .readResult, t)
  | .readBankRecord ⟨t, .inTurn⟩ => some (commandCode .readBankRecord, t)
  | .readBankRecord ⟨_, .beforeSwap⟩ => none
  | .readPointState t => some (commandCode .readPointState, t)
  | .readQueue t => some (commandCode .readQueue, t)
  | .readLinkStatus t => some (commandCode .readLinkStatus, t)
  | .readStagedEntry t => some (commandCode .readStagedEntry, t)
  | .readActiveEntry t => some (commandCode .readActiveEntry, t)
  | .readStore t _ => some (commandCode .readStore, t)
  | .clearNotices t => some (commandCode .clearNotices, t)
  | .setNoticeMask t => some (commandCode .setNoticeMask, t)
  | .setFurnaceState t => some (commandCode .setFurnaceState, t)
  | .setLag t => some (commandCode .setLag, t)
  | .lineTally t => some (commandCode .lineTally, t)
  | .setLineState t => some (commandCode .setLineState, t)
  | .writeStagedEntry t => some (commandCode .writeStagedEntry, t)
  | .commit t => some (commandCode .commit, t)
  | .discardStaged t => some (commandCode .discardStaged, t)
  | .startAccounting t => some (commandCode .startAccounting, t)
  | .stopAccounting t => some (commandCode .stopAccounting, t)
  | .closePeriod t => some (commandCode .closePeriod, t)
  | .accountingReset t => some (commandCode .accountingReset, t)
  | .clearLinkCounters t => some (commandCode .clearLinkCounters, t)
  | .injectWords t => some (commandCode .injectWords, t)
  | .saveImage t => some (commandCode .saveImage, t)
  | .loadImage t => some (commandCode .loadImage, t)
  | .setStoreProtect t _ => some (commandCode .setStoreProtect, t)
  | .unknown code t => some (code, t)
  | .imark _ => none
  | .linkWord _ _ => none
  | .pinReset => none
  | .startUpReadDone => none
  | .imageByteWrite => none
  | .saveComplete => none
  | .loadComplete => none
  | .reconciliationStage => none
  | .conversionStage => none
  | .residenceQueueStage => none
  | .furnaceSplit => none
  | .poolSplit => none
  | .totalsStage => none
  | .completion => none

/-- The level of WP_N a command carries; high where the command does not read it. -/
def wpNOf : Instr → Bool
  | .readStore _ w => w
  | .setStoreProtect _ w => w
  | .readStatus _ => true
  | .readId _ => true
  | .readNotices _ => true
  | .readResult _ => true
  | .readBankRecord _ => true
  | .readPointState _ => true
  | .readQueue _ => true
  | .readLinkStatus _ => true
  | .readStagedEntry _ => true
  | .readActiveEntry _ => true
  | .clearNotices _ => true
  | .setNoticeMask _ => true
  | .setFurnaceState _ => true
  | .setLag _ => true
  | .lineTally _ => true
  | .setLineState _ => true
  | .writeStagedEntry _ => true
  | .commit _ => true
  | .discardStaged _ => true
  | .startAccounting _ => true
  | .stopAccounting _ => true
  | .closePeriod _ => true
  | .accountingReset _ => true
  | .clearLinkCounters _ => true
  | .injectWords _ => true
  | .saveImage _ => true
  | .loadImage _ => true
  | .unknown _ _ => true
  | .imark _ => true
  | .linkWord _ _ => true
  | .pinReset => true
  | .startUpReadDone => true
  | .imageByteWrite => true
  | .saveComplete => true
  | .loadComplete => true
  | .reconciliationStage => true
  | .conversionStage => true
  | .residenceQueueStage => true
  | .furnaceSplit => true
  | .poolSplit => true
  | .totalsStage => true
  | .completion => true

/-- The whole bytes of the transaction that sends a port command: its command byte, then the bytes after it (13.4). -/
def encodeTransaction (i : Instr) : Option (List Byte) :=
  (portCommand i).map fun c => c.1 :: c.2.bytes

/-- Whole bytes out of the bits sampled at the rising edges of SCK, most significant bit first; the bits of a byte cut
short by the rise of CS_N are dropped (R161). -/
def bytesOfBits : List Bool → List Byte
  | b7 :: b6 :: b5 :: b4 :: b3 :: b2 :: b1 :: b0 :: rest =>
    BitVec.ofNat 8 ([b7, b6, b5, b4, b3, b2, b1, b0].foldl (fun v b => 2 * v + b.toNat) 0) :: bytesOfBits rest
  | _ => []

/-- The eight bits of a byte as they pass on SDI or SDO, most significant first (R161). -/
def bitsOfByte (b : Byte) : List Bool :=
  [b.getLsbD 7, b.getLsbD 6, b.getLsbD 5, b.getLsbD 4, b.getLsbD 3, b.getLsbD 2, b.getLsbD 1, b.getLsbD 0]

/-- The bits of several bytes in order (R161). -/
def bitsOfBytes (bs : List Byte) : List Bool := bs.flatMap bitsOfByte

/-! ## The pins of a port (R161, R176) -/

/-- The levels of a port's three inputs at one moment. -/
structure PinSample where
  csN : Bool
  sck : Bool
  sdi : Bool
deriving DecidableEq, Repr

/-- The two SPI modes a port accepts (R161). -/
inductive SpiMode where
  | mode0 | mode3
deriving DecidableEq, Repr

/-- The mode taken from the level of SCK when CS_N falls: low is mode 0, high is mode 3 (R161). -/
def spiModeAt (sck : Bool) : SpiMode := if sck then .mode3 else .mode0

/-- The serial side of a port: no transaction, with the level of CS_N last seen; or a transaction, with its mode, the level of SCK
last seen, the bits sampled so far and the falling edges of SCK so far. -/
inductive Serial where
  | idle (csN : Bool)
  | active (mode : SpiMode) (sck : Bool) (bits : List Bool) (falls : Nat)
deriving DecidableEq, Repr

/-- The serial side after the next sample of its pins, and the whole bytes of a transaction that ends there: a fall of CS_N begins
one and its rise ends it; SDI is sampled at each rising edge of SCK; while CS_N is high edges of SCK are ignored. With CS_N low
from the start (after a pin reset) nothing begins until it falls again (R161, R176). -/
def Serial.next (x : Serial) (p : PinSample) : Serial × Option (List Byte) :=
  match x with
  | .idle csN => (if csN && !p.csN then .active (spiModeAt p.sck) p.sck [] 0 else .idle p.csN, none)
  | .active mode sck bits falls =>
    if p.csN then (.idle true, some (bytesOfBits bits))
    else
      (.active mode p.sck (if !sck && p.sck then bits ++ [p.sdi] else bits) (if sck && !p.sck then falls + 1 else falls),
       none)

/-- What a port drives on SDO. -/
inductive SdoLevel where
  /-- Not driven: CS_N is high (R161). -/
  | highZ
  | bit (b : Bool)
  /-- R161 states no level: in mode 3 before the first falling edge of SCK, and while CS_N is still low after a pin reset and the
  port ignores the rest of the transaction (R176; log entry 2). Also beyond the last bit of `out`, which no run of samples
  reaches where `out` is `State.reply`. -/
  | unstated
deriving DecidableEq, Repr

/-- The level on SDO where `out` are the bits the part sends in the transaction (`State.reply` gives its bytes): the first bit
from the fall of CS_N in mode 0 and from the first falling edge of SCK in mode 3, the next one at each further falling edge;
high-impedance while CS_N is high (R161). -/
def Serial.sdo (out : List Bool) (x : Serial) : SdoLevel :=
  let bitAt (k : Nat) : SdoLevel := match out[k]? with
    | some b => .bit b
    | none => .unstated
  match x with
  | .idle csN => if csN then .highZ else .unstated
  | .active .mode0 _ _ falls => bitAt falls
  | .active .mode3 _ _ 0 => .unstated
  | .active .mode3 _ _ (falls + 1) => bitAt falls

/-- The whole bytes of the transaction in progress so far; none with no transaction in progress (R161). -/
def Serial.received : Serial → List Byte
  | .idle _ => []
  | .active _ _ bits _ => bytesOfBits bits

/-- The serial side after a run of samples, and the transactions that ended in it, in order. -/
def Serial.run (x : Serial) : List PinSample → Serial × List (List Byte)
  | [] => (x, [])
  | p :: ps =>
    let y := x.next p
    let z := y.1.run ps
    (z.1, y.2.toList ++ z.2)

/-- The commands that the pins of port `p` spell over a run of samples, each a whole transaction. -/
def commandsOfPins (p : Port) (wpN : Bool) (x : Serial) (ps : List PinSample) : List Instr :=
  (x.run ps).2.filterMap (decodeTransaction p wpN)

/-- The samples by which a controller sends bits from the fall of CS_N on: SCK falls (or is low) with a bit on SDI, and rises. -/
def clockBits (bits : List Bool) : List PinSample := bits.flatMap fun b => [⟨false, false, b⟩, ⟨false, true, b⟩]

/-- The samples of a transaction in a mode: CS_N falls with SCK at the mode's level, the bits are clocked, CS_N rises (R161). -/
def pinsOfBits (mode : SpiMode) (bits : List Bool) : List PinSample :=
  ⟨false, mode == .mode3, false⟩ :: clockBits bits ++ [⟨true, mode == .mode3, false⟩]

/-- A link word out of its twenty-one bit times (13.1): start (low), sixteen data bits least significant first, S, E, P
and the stop bit as sampled; none where the start bit is not low or the count is not twenty-one. -/
def linkWordOfBits (bits : List Bool) : Option LinkWord :=
  match bits with
  | false :: rest =>
    match rest.drop 16 with
    | [s, e, p, stop] =>
      some ⟨BitVec.ofNat 16 ((rest.take 16).foldr (fun b v => 2 * v + b.toNat) 0), s, e, p, stop⟩
    | _ => none
  | _ => none

/-- The twenty-one bit times of a link word (13.1). -/
def bitsOfLinkWord (w : LinkWord) : List Bool :=
  false :: ((indices 16).map fun i => w.data.getLsbD i.val) ++ [w.s, w.e, w.p, w.stop]

/-- The command a table word spells. No row of spec/opcode_table.json has bits ("fields": [] in every row), so no word
spells a command (log entry 24). -/
def decodeTableWord (_nbits _w : Nat) : Option Instr := none

end Sys2Proof
end

