-- ==== Sys2Proof/Machine/State.lean ====
section
/-! DEFINITION. The state of the part, block by block (00_scope.md 2), and the state right after a pin reset. Plain data
throughout. Counts, energies and masses are `Nat`, interval and period numbers and everything the spec shifts or wraps as a
word are bit vectors, modes and codes are inductive types. -/

namespace Sys2Proof.Machine

/-! ## Quantities kept per carrier, per error kind, and sets of flags -/

/-- The four carriers (00_scope.md 4.2). -/
inductive Carrier where
  | fuel | elec | oxy | aux
deriving DecidableEq, Repr

/-- A whole number per carrier: kilojoules, per carrier (00_scope.md 4.2). -/
structure Kj where
  fuel : Nat
  elec : Nat
  oxy  : Nat
  aux  : Nat
deriving DecidableEq, Repr

/-- The four kinds of link error (R38). -/
inductive ErrorKind where
  | line | form | sequence | timing
deriving DecidableEq, Repr

/-- One value per kind of link error. -/
structure PerKind (α : Type) where
  line     : α
  form     : α
  sequence : α
  timing   : α
deriving DecidableEq, Repr

/-- A set of quality flags (R85, R138). -/
structure Quality where
  estimated   : Bool
  incomplete  : Bool
  implausible : Bool
  manual      : Bool
  saturated   : Bool
deriving DecidableEq, Repr

/-- The findings of an interval (R86, R138). -/
structure Findings where
  estimate    : Bool
  pointLost   : Bool
  implausible : Bool
  saturated   : Bool
deriving DecidableEq, Repr

/-! ## Plant map (R1 to R8) -/

/-- The mode of a link (R3). -/
inductive LinkMode where
  | off | live | test
deriving DecidableEq, Repr

/-- Where a point's energy goes (R4, fields 3 and 4). -/
inductive Target where
  | furnace (f : Fin 4)
  | line (l : Fin 12)
  | pool (p : Fin 4)
  | monitor
deriving DecidableEq, Repr

/-- The quantity a pool is split over (R7). -/
inductive Basis where
  | gross | pack | fixed
deriving DecidableEq, Repr

/-- The GLOBAL entry (R2). A set bit of the wrap mask is WRAP. -/
structure GlobalEntry where
  holdLimit      : Nat
  threshold      : Nat
  wrapMask       : PerKind Bool
  quarantineMask : PerKind Bool
  commitAtPeriod : Bool
  plantMin       : Nat
deriving DecidableEq, Repr

/-- A LINK entry (R3). -/
structure LinkEntry where
  mode         : LinkMode
  concentrator : Nat
  pointCount   : Nat
deriving DecidableEq, Repr

/-- A POINT entry (R4). No curve is curve number 15. -/
structure PointEntry where
  enabled : Bool
  carrier : Carrier
  target  : Target
  factor  : Nat
  curve   : Option (Fin 8)
  maxInc  : Nat
deriving DecidableEq, Repr

/-- A FURNACE entry (R5). -/
structure FurnaceEntry where
  enabled : Bool
  minMass : Nat
deriving DecidableEq, Repr

/-- A LINE entry (R6). -/
structure LineEntry where
  enabled : Bool
  furnace : Fin 4
  maxGobs : Nat
  minMass : Nat
  weights : Tab 4 Nat
deriving DecidableEq, Repr

/-- A POOL entry (R7). -/
structure PoolEntry where
  enabled : Bool
  basis   : Basis
deriving DecidableEq, Repr

/-- A CURVE entry: the gains of segments 0 to 15 (R8). -/
structure CurveEntry where
  gains : Tab 16 Nat
deriving DecidableEq, Repr

/-- One copy of the plant map: the seven tables (R1). -/
structure PlantMap where
  global   : GlobalEntry
  links    : Tab 8 LinkEntry
  points   : Tab 128 PointEntry
  furnaces : Tab 4 FurnaceEntry
  lines    : Tab 12 LineEntry
  pools    : Tab 4 PoolEntry
  curves   : Tab 8 CurveEntry
deriving DecidableEq, Repr

/-- The plant map block (R1). -/
structure PlantBlock where
  staged        : PlantMap
  active        : PlantMap
  commitPending : Bool
deriving DecidableEq, Repr

/-! ## Meter link receivers and link error counters (R20, R38) -/

/-- The two kinds of frame (2.3). -/
inductive FrameKind where
  | report | heartbeat
deriving DecidableEq, Repr

/-- The header fields of a frame in progress (R20). -/
structure Header where
  kind         : FrameKind
  sequence     : BitVec 4
  pointCount   : Nat
  concentrator : Nat
deriving DecidableEq, Repr

/-- What a frame carries for one point slot (R31). -/
structure Reading where
  value  : BitVec 24
  fault  : Bool
  manual : Bool
deriving DecidableEq, Repr

/-- Word A of a slot, kept until its word B arrives (R26). -/
structure WordA where
  fault  : Bool
  manual : Bool
  high   : BitVec 8
deriving DecidableEq, Repr

/-- The decoder state with the frame in progress, which exists only in TAG and POINTS (R20). In POINTS the slot index is
the number of readings so far, and word B is expected exactly when word A has been kept. -/
inductive Decoder where
  | hunt
  | tag (h : Header)
  | points (h : Header) (tag : BitVec 16) (readings : List Reading) (wordA : Option WordA)
  | discard
deriving DecidableEq, Repr

/-- One meter link receiver (R20). -/
structure Receiver where
  decoder   : Decoder
  strayRun  : Bool
  lastSeq   : BitVec 4
  armed     : Bool
  taken     : BitVec 16
  discarded : BitVec 16
deriving DecidableEq, Repr

/-- One link: its receiver and its error counters, flags and quarantine state (R20, R38). -/
structure Link where
  rx          : Receiver
  counts      : PerKind (BitVec 8)
  flags       : PerKind Bool
  quarantined : Bool
deriving DecidableEq, Repr

/-- What a taken frame hands to the collection controller (R31); the point count is the number of readings. -/
structure Delivery where
  kind     : FrameKind
  tag      : BitVec 16
  readings : List Reading
deriving DecidableEq, Repr

/-! ## Collection controller (R49) -/

/-- The accounting state (R49, R50). -/
inductive AccState where
  | booting | unconfigured | ready | running | stopping
deriving DecidableEq, Repr

/-- The state of a forming line (R49). -/
inductive LineState where
  | running | jobChange | stopped | off
deriving DecidableEq, Repr

/-- Why an interval ends a period (R63, R65). -/
inductive CloseCause where
  | mark | command | stop
deriving DecidableEq, Repr

/-- The status of a slot set (R49); `opened` is OPEN. -/
inductive SetStatus where
  | free | opened | waiting | computing
deriving DecidableEq, Repr

/-- A line tally as a slot holds it (R49). -/
structure Tally where
  tag     : BitVec 16
  gobs    : BitVec 32
  packed  : BitVec 32
  gobMass : BitVec 16
deriving DecidableEq, Repr

/-- One slot set (R49). The period-end flag is set exactly when `mark` holds a cause. -/
structure SlotSet where
  status   : SetStatus
  interval : BitVec 32
  links    : Tab 8 (Option Delivery)
  lines    : Tab 12 (Option Tally)
  mark     : Option CloseCause
deriving DecidableEq, Repr

/-- The collection controller (R49). -/
structure Controller where
  acc        : AccState
  current    : BitVec 32
  lastClosed : BitVec 32
  sets       : Tab 2 SlotSet
  closeLatch : Bool
  lineStates : Tab 12 LineState
deriving DecidableEq, Repr

/-! ## Source table (R69) -/

/-- The state of a source (R69). -/
inductive SrcState where
  | unset | tracking | estimating | lost
deriving DecidableEq, Repr

/-- The part of a source record that a line's two counter sets share (R69). -/
structure SrcHead where
  state    : SrcState
  run      : Nat
  quality  : Quality
  interval : BitVec 32
deriving DecidableEq, Repr

/-- The account of one counter: baseline B, estimate sum S, debt D, last increment Lc, last booked count (R69). -/
structure CounterSet where
  base    : Nat
  sum     : Nat
  debt    : Nat
  lastInc : Nat
  booked  : Nat
deriving DecidableEq, Repr

/-- A point record (R69). -/
structure PointRecord where
  head    : SrcHead
  counter : CounterSet
deriving DecidableEq, Repr

/-- A line record (R69). -/
structure LineRecord where
  head    : SrcHead
  gobs    : CounterSet
  packed  : CounterSet
  gobMass : Nat
deriving DecidableEq, Repr

/-- The source table (R69). -/
structure SourceTable where
  points : Tab 128 PointRecord
  lines  : Tab 12 LineRecord
deriving DecidableEq, Repr

/-! ## Residence queues (R102) -/

/-- The state of a furnace (R102). -/
inductive FurnaceState where
  | melt | hold | heatup
deriving DecidableEq, Repr

/-- A record of a residence queue (R102). -/
structure QueueRecord where
  interval : BitVec 32
  energy   : Kj
  quality  : Quality
deriving DecidableEq, Repr

/-- One furnace: state, queue (oldest first), active and pending lag (R102). -/
structure Furnace where
  state      : FurnaceState
  queue      : List QueueRecord
  lag        : Nat
  pendingLag : Option Nat
deriving DecidableEq, Repr

/-! ## Apportionment engine (R56, R90, R138) -/

/-- The interval accumulators and the quality sets beside them (R90). -/
structure Accumulators where
  furnaceDirect  : Tab 4 Kj
  lineDirect     : Tab 12 Kj
  poolMetered    : Tab 4 Kj
  monitor        : Kj
  plant          : Kj
  gross          : Tab 12 Nat
  packed         : Tab 12 Nat
  plantGross     : Nat
  plantPacked    : Nat
  furnaceQuality : Tab 4 Quality
  lineQuality    : Tab 12 Quality
  poolQuality    : Tab 4 Quality
  plantQuality   : Quality
  monitorQuality : Quality
deriving DecidableEq, Repr

/-- What the residence queue stage hands to the furnace split besides energy (R104, R119). -/
structure Released where
  quality : Quality
  records : Nat
deriving DecidableEq, Repr

/-- The stage a computation has finished (8.6): none in flight, or stage 1 to 7 done, or `banked`: its interval is published and
added to the ACTIVE bank and the swap that follows is still to come (R128, R155). -/
inductive Phase where
  | idle | started | reconciled | converted | queued | furnaceSplit | poolSplit | totalled | banked
deriving DecidableEq, Repr

/-- The engine's state for the computation in flight (R56, R90). -/
structure Engine where
  phase         : Phase
  lineStates    : Tab 12 LineState
  furnaceStates : Tab 4 FurnaceState
  quarantined   : Tab 8 Bool
  acc           : Accumulators
  released      : Tab 4 Released
  saturated     : Bool
deriving DecidableEq, Repr

/-- A point entry of the result table (R97). -/
structure PointResult where
  count   : Nat
  segment : Nat
  kj      : Nat
  residue : Nat
  carrier : Carrier
  target  : Target
  quality : Quality
deriving DecidableEq, Repr

/-- A line entry of the result table (R99, R123, R124, R135); `minMass` is kept for the carrier views (R142). -/
structure LineResult where
  state        : LineState
  gobs         : Nat
  packed       : Nat
  gobMass      : Nat
  grossMass    : Nat
  packedMass   : Nat
  furnaceShare : Kj
  direct       : Kj
  poolShare    : Kj
  total        : Kj
  seGross      : Nat
  sePack       : Nat
  quality      : Quality
  minMass      : Nat
deriving DecidableEq, Repr

/-- A furnace entry of the result table (R104, R116, R119, R120, R125, R136). -/
structure FurnaceResult where
  state      : FurnaceState
  lag        : Nat
  occupancy  : Nat
  pull       : Nat
  released   : Kj
  attributed : Kj
  noPull     : Kj
  hold       : Kj
  heatup     : Kj
  metered    : Kj
  seMelt     : Nat
  seFired    : Nat
  quality    : Quality
  minMass    : Nat
deriving DecidableEq, Repr

/-- A pool entry of the result table (R122). -/
structure PoolResult where
  basis        : Basis
  metered      : Kj
  shared       : Kj
  unattributed : Kj
  quality      : Quality
deriving DecidableEq, Repr

/-- The plant entry of the result table (R130, R137). -/
structure PlantResult where
  metered        : Kj
  monitor        : Kj
  unattributed   : Kj
  grossMass      : Nat
  packedMass     : Nat
  sePlant        : Nat
  quality        : Quality
  monitorQuality : Quality
  minMass        : Nat
deriving DecidableEq, Repr

/-- The header of the result table (R138). -/
structure ResultHeader where
  interval  : BitVec 32
  period    : BitVec 32
  mark      : Option CloseCause
  linksUsed : Tab 8 Bool
  linesUsed : Tab 12 Bool
  findings  : Findings
deriving DecidableEq, Repr

/-- One copy of the result table that holds an interval (R138). An absent entry is `none`. -/
structure ResultTable where
  header   : ResultHeader
  points   : Tab 128 (Option PointResult)
  lines    : Tab 12 (Option LineResult)
  furnaces : Tab 4 (Option FurnaceResult)
  pools    : Tab 4 (Option PoolResult)
  plant    : PlantResult
deriving DecidableEq, Repr

/-! ## Period banks (R144, R145) -/

/-- The state of a bank (R144). -/
inductive BankState where
  | empty | active | frozen
deriving DecidableEq, Repr

/-- A furnace record (R145). `nowFrozen` is in-process now as stored at the swap; for the ACTIVE bank in-process now is
formed from the queue at the read (R149). -/
structure FurnaceRecord where
  metered    : Kj
  attributed : Kj
  noPull     : Kj
  hold       : Kj
  heatup     : Kj
  atStart    : Kj
  nowFrozen  : Kj
  pull       : Nat
  meltCount   : BitVec 32
  holdCount   : BitVec 32
  heatupCount : BitVec 32
  estimatedCount  : BitVec 32
  incompleteCount : BitVec 32
deriving DecidableEq, Repr

/-- A line record of a bank (R145). -/
structure LineBankRecord where
  furnaceShare : Kj
  direct       : Kj
  poolShare    : Kj
  grossMass    : Nat
  packedMass   : Nat
  runningCount   : BitVec 32
  jobChangeCount : BitVec 32
  stoppedCount   : BitVec 32
  offCount       : BitVec 32
  estimatedCount   : BitVec 32
  incompleteCount  : BitVec 32
  implausibleCount : BitVec 32
  manualCount      : BitVec 32
  saturatedCount   : BitVec 32
deriving DecidableEq, Repr

/-- A pool record of a bank (R145). -/
structure PoolRecord where
  metered      : Kj
  shared       : Kj
  unattributed : Kj
deriving DecidableEq, Repr

/-- The plant record of a bank (R145). -/
structure PlantRecord where
  metered      : Kj
  monitor      : Kj
  unattributed : Kj
  grossMass    : Nat
  packedMass   : Nat
deriving DecidableEq, Repr

/-- One period bank (R144). -/
structure Bank where
  state     : BankState
  period    : BitVec 32
  first     : BitVec 32
  last      : BitVec 32
  count     : BitVec 32
  cause     : Option CloseCause
  saturated : Bool
  furnaces  : Tab 4 FurnaceRecord
  lines     : Tab 12 LineBankRecord
  pools     : Tab 4 PoolRecord
  plant     : PlantRecord
deriving DecidableEq, Repr

/-! ## Client ports and notice units (R160, R172) -/

/-- The results of a command (R163); `noCommand` is NONE. -/
inductive Result where
  | noCommand | done | accepted | refusedRights | refusedForm | refusedRange | refusedState | refusedBusy
  | refusedLate | refusedAhead | refusedProtected | unknown
deriving DecidableEq, Repr

/-- A refusal detail (R160, R169). -/
structure Detail where
  table  : Nat
  value  : Nat
  number : Nat
deriving DecidableEq, Repr

/-- What a transaction decoder holds while CS_N is low (R160). Between two commands of the queue it can be a READ STATUS alone
(log entry 1). -/
structure Transaction where
  code  : Byte
  count : Nat
  args  : List Byte
deriving DecidableEq, Repr

/-- One client port with its notice unit (R160, R172). `sent` records the bytes driven on SDO with the whole bytes of
the port's latest transaction. -/
structure PortUnit where
  decoder    : Option Transaction
  buffer     : List Byte
  lastResult : Result
  detail     : Detail
  notices    : BitVec 16
  mask       : BitVec 16
  sent       : List Byte
deriving DecidableEq, Repr

/-- The three ports (R160). -/
structure Ports where
  m : PortUnit
  f : PortUnit
  e : PortUnit
deriving DecidableEq, Repr

/-! ## Configuration store (R177) -/

/-- The operation in flight (R177, R180): a SAVE holds the snapshot of map and lags and the address written next. -/
inductive StoreOp where
  | none
  | save (snapshot : PlantMap) (lags : Tab 4 Nat) (next : Nat)
  | load
deriving DecidableEq, Repr

/-- The operation last finished (R177). -/
inductive LastOp where
  | startUp | save | load
deriving DecidableEq, Repr

/-- Its outcome (R177). -/
inductive StoreOutcome where
  | good | bad | written
deriving DecidableEq, Repr

/-- The configuration store (R177). -/
structure Store where
  image      : List Host.Cell
  lock       : Bool
  freeze     : Bool
  busy       : Bool
  op         : StoreOp
  lastOp     : LastOp
  outcome    : StoreOutcome
  failedStep : Nat
deriving DecidableEq, Repr

/-! ## The state -/

/-- The state of the part, and (the model's own) the queue of waiting commands and the number of free values drawn. -/
structure State where
  plant     : PlantBlock
  links     : Tab 8 Link
  ctrl      : Controller
  sources   : SourceTable
  residues  : Tab 128 Nat
  furnaces  : Tab 4 Furnace
  engine    : Engine
  working   : Option ResultTable
  published : Option ResultTable
  banks     : Tab 2 Bank
  ports     : Ports
  store     : Store
  freeIdx   : Nat
  pending   : List Instr
deriving DecidableEq, Repr

/-- No command of the part ends in a fault: the part answers a bad command with a result code (R163). The type has no
constructor. -/
inductive Fault where
deriving DecidableEq, Repr

/-- Why a step is refused. -/
inductive Refusal where
  /-- Raised by exec for a command that has no meaning yet; safe. No command of this model is in that case. -/
  | notModelled (mnemonic : String)
  /-- Raised by UNKNOWN for a term whose command byte names a command: such a term is no command of the part
  (R165 check 1; WellFormed refuses it); safe. -/
  | commandByteKnown
deriving DecidableEq, Repr

/-! ## The values after a pin reset -/

/-- No energy of any carrier. -/
def Kj.zero : Kj := ⟨0, 0, 0, 0⟩

/-- The same value for every kind. -/
def PerKind.const {α : Type} (a : α) : PerKind α := ⟨a, a, a, a⟩

/-- The empty quality set. -/
def Quality.empty : Quality := ⟨false, false, false, false, false⟩

/-- No finding. -/
def Findings.clear : Findings := ⟨false, false, false, false⟩

/-- The empty map: the "Empty" column of R2 to R8. -/
def PlantMap.empty : PlantMap where
  global := ⟨5, 16, .const false, .const false, false, 100⟩
  links := .const 8 ⟨.off, 0, 1⟩
  points := .const 128 ⟨false, .fuel, .monitor, 0, none, 1⟩
  furnaces := .const 4 ⟨false, 1⟩
  lines := .const 12 ⟨false, 0, 1, 1, .const 4 0⟩
  pools := .const 4 ⟨false, .gross⟩
  curves := .const 8 ⟨.const 16 32768⟩

/-- A receiver after a pin reset (R37). -/
def Receiver.reset : Receiver := ⟨.hunt, false, 0, false, 0, 0⟩

/-- A link after a pin reset (R37, R48). -/
def Link.reset : Link := ⟨.reset, .const 0, .const false, false⟩

/-- A FREE slot set; its contents have no meaning (R49), the model holds them empty (log entry 12). -/
def SlotSet.free : SlotSet := ⟨.free, 0, .const 8 none, .const 12 none, none⟩

/-- The collection controller after a pin reset (R49). -/
def Controller.reset : Controller where
  acc := .booting
  current := 0
  lastClosed := 0
  sets := .const 2 .free
  closeLatch := false
  lineStates := .const 12 .off

/-- The shared part of a record after a pin reset (R69). -/
def SrcHead.reset : SrcHead := ⟨.unset, 0, .empty, 0⟩

/-- A counter's account with every field 0. -/
def CounterSet.zero : CounterSet := ⟨0, 0, 0, 0, 0⟩

/-- The source table after a pin reset (R69). -/
def SourceTable.reset : SourceTable where
  points := .const 128 ⟨.reset, .zero⟩
  lines := .const 12 ⟨.reset, .zero, .zero, 0⟩

/-- A furnace after a pin reset (R114). -/
def Furnace.reset : Furnace := ⟨.melt, [], 0, none⟩

/-- Every accumulator 0 and every quality set empty (R90). -/
def Accumulators.zero : Accumulators where
  furnaceDirect := .const 4 .zero
  lineDirect := .const 12 .zero
  poolMetered := .const 4 .zero
  monitor := .zero
  plant := .zero
  gross := .const 12 0
  packed := .const 12 0
  plantGross := 0
  plantPacked := 0
  furnaceQuality := .const 4 .empty
  lineQuality := .const 12 .empty
  poolQuality := .const 4 .empty
  plantQuality := .empty
  monitorQuality := .empty

/-- The engine with no computation in flight. -/
def Engine.idle : Engine where
  phase := .idle
  lineStates := .const 12 .off
  furnaceStates := .const 4 .melt
  quarantined := .const 8 false
  acc := .zero
  released := .const 4 ⟨.empty, 0⟩
  saturated := false

/-- A furnace record with every field 0. -/
def FurnaceRecord.zero : FurnaceRecord :=
  ⟨.zero, .zero, .zero, .zero, .zero, .zero, .zero, 0, 0, 0, 0, 0, 0⟩

/-- A line record with every field 0. -/
def LineBankRecord.zero : LineBankRecord :=
  ⟨.zero, .zero, .zero, 0, 0, 0, 0, 0, 0, 0, 0, 0, 0, 0⟩

/-- A bank with every field 0 (R144, R153). -/
def Bank.cleared (st : BankState) (period : BitVec 32) : Bank where
  state := st
  period := period
  first := 0
  last := 0
  count := 0
  cause := none
  saturated := false
  furnaces := .const 4 .zero
  lines := .const 12 .zero
  pools := .const 4 ⟨.zero, .zero, .zero⟩
  plant := ⟨.zero, .zero, .zero, 0, 0⟩

/-- The banks after either reset (R159). -/
def Bank.afterReset : Tab 2 Bank := ⟨[.cleared .active 1, .cleared .empty 0], rfl⟩

/-- A port after a pin reset (R160, R176). -/
def PortUnit.reset : PortUnit where
  decoder := none
  buffer := List.replicate Config.bufferSize 0xFF
  lastResult := .noCommand
  detail := ⟨0, 0, 0⟩
  notices := 0
  mask := 0
  sent := []

/-- The store right after a pin reset that found `image`, LOCK and FREEZE in the non-volatile cells (R177). The last
operation and outcome are set when BOOTING ends; until then DESIGN CHOICE (log entry 7). -/
def Store.afterReset (image : List Host.Cell) (lock freeze : Bool) : Store where
  image := image
  lock := lock
  freeze := freeze
  busy := true
  op := .none
  lastOp := .startUp
  outcome := .good
  failedStep := 0

/-- The part right after a pin reset, as delivered: LOCK and FREEZE clear and an image area that fails the judgement
(R177); DESIGN CHOICE every byte of it 0xFF (log entry 6). -/
def State.reset : State where
  plant := ⟨.empty, .empty, false⟩
  links := .const 8 .reset
  ctrl := .reset
  sources := .reset
  residues := .const 128 0
  furnaces := .const 4 .reset
  engine := .idle
  working := none
  published := none
  banks := Bank.afterReset
  ports := ⟨.reset, .reset, .reset⟩
  store := .afterReset [] false false
  freeIdx := 0
  pending := []

end Sys2Proof.Machine
end

