-- ==== Sys2Proof/Machine/Operands.lean ====
section
/-! DEFINITION. Operand forms: multi-byte values, entry images and their range checks, view bytes, codes (R9, R185, 13.3,
13.5). -/

namespace Sys2Proof.Machine

/-! ## Multi-byte values, most significant byte first (R185) -/

/-- The number a byte sequence spells, most significant byte first. -/
def beNat (bs : List Byte) : Nat := bs.foldl (fun v b => v * 256 + b.toNat) 0

/-- `x` in `n` bytes, most significant first; bits of `x` above them are dropped. -/
def toBE : Nat → Nat → List Byte
  | 0, _ => []
  | n + 1, x => BitVec.ofNat 8 (x / 256 ^ n) :: toBE n x

/-- The byte at offset `k`; 0 beyond the end. -/
def byteAt (bs : List Byte) (k : Nat) : Byte := bs.getD k 0

/-- The value of the byte at offset `k`. -/
def natAt (bs : List Byte) (k : Nat) : Nat := (byteAt bs k).toNat

/-- The value of the `n` bytes from offset `k`. -/
def beAt (bs : List Byte) (k n : Nat) : Nat := beNat ((bs.drop k).take n)

/-- One byte holding `x`. -/
def byteOf (x : Nat) : Byte := BitVec.ofNat 8 x

/-- One byte holding a flag: 1 for set, 0 for clear, as the enabled fields of the entries are coded (chapter 1). DESIGN CHOICE (log
entry 44): 13.6 states no code for the bytes quarantined, pending held and saturation flag. -/
def flagByte (b : Bool) : Byte := if b then 1 else 0

/-! ## Codes (13.3) -/

/-- The carrier a code names (13.3, and chapter 1 for the map's codes). -/
def carrierOfCode : Nat → Option Carrier
  | 0 => some .fuel
  | 1 => some .elec
  | 2 => some .oxy
  | 3 => some .aux
  | _ => none

/-- The code of a carrier (13.3). -/
def carrierCode : Carrier → Nat
  | .fuel => 0
  | .elec => 1
  | .oxy => 2
  | .aux => 3

/-- The link mode a code names (13.3, and chapter 1 for the map's codes). -/
def linkModeOfCode : Nat → Option LinkMode
  | 0 => some .off
  | 1 => some .live
  | 2 => some .test
  | _ => none

/-- The code of a link mode (13.3). -/
def linkModeCode : LinkMode → Nat
  | .off => 0
  | .live => 1
  | .test => 2

/-- The basis a code names (13.3, and chapter 1 for the map's codes). -/
def basisOfCode : Nat → Option Basis
  | 0 => some .gross
  | 1 => some .pack
  | 2 => some .fixed
  | _ => none

/-- The code of a basis (13.3). -/
def basisCode : Basis → Nat
  | .gross => 0
  | .pack => 1
  | .fixed => 2

/-- The code of a target's kind (13.3). -/
def targetKindCode : Target → Nat
  | .furnace _ => 0
  | .line _ => 1
  | .pool _ => 2
  | .monitor => 3

/-- The index of a target within its kind; 0 for MONITOR (R4). -/
def targetIndex : Target → Nat
  | .furnace f => f.val
  | .line l => l.val
  | .pool p => p.val
  | .monitor => 0

/-- The target named by a kind and an index within the range of that kind (R4, fields 3 and 4). -/
def targetOfCodes (kind index : Nat) : Option Target :=
  match kind with
  | 0 => (toIdx 4 index).map .furnace
  | 1 => (toIdx 12 index).map .line
  | 2 => (toIdx 4 index).map .pool
  | 3 => if index = 0 then some .monitor else none
  | _ => none

/-- The line state a code names (13.3, and chapter 1 for the map's codes). -/
def lineStateOfCode : Nat → Option LineState
  | 0 => some .running
  | 1 => some .jobChange
  | 2 => some .stopped
  | 3 => some .off
  | _ => none

/-- The code of a line state (13.3). -/
def lineStateCode : LineState → Nat
  | .running => 0
  | .jobChange => 1
  | .stopped => 2
  | .off => 3

/-- The furnace state a code names (13.3, and chapter 1 for the map's codes). -/
def furnaceStateOfCode : Nat → Option FurnaceState
  | 0 => some .melt
  | 1 => some .hold
  | 2 => some .heatup
  | _ => none

/-- The code of a furnace state (13.3). -/
def furnaceStateCode : FurnaceState → Nat
  | .melt => 0
  | .hold => 1
  | .heatup => 2

/-- The code of a source state (13.3). -/
def srcStateCode : SrcState → Nat
  | .unset => 0
  | .tracking => 1
  | .estimating => 2
  | .lost => 3

/-- The code of a decoder state (13.3). -/
def decoderCode : Decoder → Nat
  | .hunt => 0
  | .tag _ => 1
  | .points _ _ _ _ => 2
  | .discard => 3

/-- The code of a close cause (13.3). -/
def causeCode : Option CloseCause → Nat
  | none => 0
  | some .mark => 1
  | some .command => 2
  | some .stop => 3

/-- The code of a bank state (13.3). -/
def bankStateCode : BankState → Nat
  | .empty => 0
  | .active => 1
  | .frozen => 2

/-- The code of a port (READ ID) (13.3). -/
def portCode : Port → Nat
  | .m => 0
  | .f => 1
  | .e => 2

/-- The code of a last store operation (13.3). -/
def lastOpCode : LastOp → Nat
  | .startUp => 0
  | .save => 1
  | .load => 2

/-- The code of a store outcome (13.3). -/
def outcomeCode : StoreOutcome → Nat
  | .good => 0
  | .bad => 1
  | .written => 2

/-- The numbers of the map tables (section 1.1). -/
def tableGlobal : Nat := 0
def tableLink : Nat := 1
def tablePoint : Nat := 2
def tableFurnace : Nat := 3
def tableLine : Nat := 4
def tablePool : Nat := 5
def tableCurve : Nat := 6

/-- Entries of the table with this number (section 1.1); none for a number above 6. -/
def tableEntries : Nat → Option Nat
  | 0 => some 1
  | 1 => some 8
  | 2 => some 128
  | 3 => some 4
  | 4 => some 12
  | 5 => some 4
  | 6 => some 8
  | _ => none

/-! ## Entry images (13.5): reading one and checking its fields in order (R9 step 3)

A reader answers the entry, or the number of the first offending field. Bytes beyond the last field are padding and are
not judged (R185). -/

/-- A flag byte: 0 or 1, anything else offends field `n`. -/
def flagField (n x : Nat) : Except Nat Bool :=
  if x = 0 then .ok false else if x = 1 then .ok true else .error n

/-- A number from `lo` to `hi`; anything else offends field `n`. -/
def rangeField (n lo hi x : Nat) : Except Nat Nat :=
  if lo ≤ x ∧ x ≤ hi then .ok x else .error n

/-- A code; one the field does not list offends field `n`. -/
def codeField {α : Type} (n : Nat) (c : Option α) : Except Nat α :=
  match c with
  | some a => .ok a
  | none => .error n

/-- A kind mask: bit 0 LINE, 1 FORM, 2 SEQUENCE, 3 TIMING; a bit the layout does not assign offends (R185). -/
def maskField (n : Nat) (b : Byte) : Except Nat (PerKind Bool) :=
  if b.toNat ≤ 15 then .ok ⟨b.getLsbD 0, b.getLsbD 1, b.getLsbD 2, b.getLsbD 3⟩ else .error n

/-- A mask byte from four flags. -/
def maskByte (m : PerKind Bool) : Byte :=
  byteOf (m.line.toNat + 2 * m.form.toNat + 4 * m.sequence.toNat + 8 * m.timing.toNat)

/-- A GLOBAL image (R2). -/
def globalOfImage (b : List Byte) : Except Nat GlobalEntry :=
  (rangeField 1 0 15 (natAt b 0)).bind fun h =>
  (rangeField 2 1 255 (natAt b 1)).bind fun t =>
  (maskField 3 (byteAt b 2)).bind fun w =>
  (maskField 4 (byteAt b 3)).bind fun q =>
  (flagField 5 (natAt b 4)).bind fun c =>
  (rangeField 6 1 65535 (beAt b 5 2)).bind fun m =>
  .ok ⟨h, t, w, q, c, m⟩

/-- The image of a GLOBAL entry without padding (13.5). -/
def globalImage (g : GlobalEntry) : List Byte :=
  [byteOf g.holdLimit, byteOf g.threshold, maskByte g.wrapMask, maskByte g.quarantineMask, flagByte g.commitAtPeriod]
    ++ toBE 2 g.plantMin

/-- A LINK image (R3). -/
def linkOfImage (b : List Byte) : Except Nat LinkEntry :=
  (codeField 1 (linkModeOfCode (natAt b 0))).bind fun m =>
  (rangeField 2 0 31 (natAt b 1)).bind fun c =>
  (rangeField 3 1 16 (natAt b 2)).bind fun n =>
  .ok ⟨m, c, n⟩

/-- The image of a LINK entry without padding (13.5). -/
def linkImage (l : LinkEntry) : List Byte :=
  [byteOf (linkModeCode l.mode), byteOf l.concentrator, byteOf l.pointCount]

/-- The curve number of a POINT image: 0 to 7, or 15 for none (R4 field 6). -/
def curveField (n x : Nat) : Except Nat (Option (Fin 8)) :=
  if x = 15 then .ok none else codeField n ((toIdx 8 x).map some)

/-- The curve number of a POINT image; 15 for none (R4). -/
def curveNumber : Option (Fin 8) → Nat
  | some c => c.val
  | none => 15

/-- A POINT image (R4); the target index is checked against the range of the kind in the same image (R9). -/
def pointOfImage (b : List Byte) : Except Nat PointEntry :=
  (flagField 1 (natAt b 0)).bind fun en =>
  (codeField 2 (carrierOfCode (natAt b 1))).bind fun c =>
  (rangeField 3 0 3 (natAt b 2)).bind fun k =>
  (codeField 4 (targetOfCodes k (natAt b 3))).bind fun t =>
  (curveField 6 (natAt b 8)).bind fun v =>
  (rangeField 7 1 1048575 (beAt b 9 3)).bind fun m =>
  .ok ⟨en, c, t, beAt b 4 4, v, m⟩

/-- The image of a POINT entry without padding (13.5). -/
def pointImage (p : PointEntry) : List Byte :=
  [flagByte p.enabled, byteOf (carrierCode p.carrier), byteOf (targetKindCode p.target), byteOf (targetIndex p.target)]
    ++ toBE 4 p.factor ++ [byteOf (curveNumber p.curve)] ++ toBE 3 p.maxInc

/-- A FURNACE image (R5). -/
def furnaceOfImage (b : List Byte) : Except Nat FurnaceEntry :=
  (flagField 1 (natAt b 0)).bind fun en =>
  (rangeField 2 1 65535 (beAt b 1 2)).bind fun m =>
  .ok ⟨en, m⟩

/-- The image of a FURNACE entry without padding (13.5). -/
def furnaceImage (f : FurnaceEntry) : List Byte := flagByte f.enabled :: toBE 2 f.minMass

/-- A LINE image (R6). -/
def lineOfImage (b : List Byte) : Except Nat LineEntry :=
  (flagField 1 (natAt b 0)).bind fun en =>
  (codeField 2 (toIdx 4 (natAt b 1))).bind fun f =>
  (rangeField 3 1 65535 (beAt b 2 2)).bind fun g =>
  (rangeField 4 1 65535 (beAt b 4 2)).bind fun m =>
  .ok ⟨en, f, g, m, Tab.ofFn fun p => natAt b (6 + p.val)⟩

/-- The image of a LINE entry without padding (13.5). -/
def lineImage (l : LineEntry) : List Byte :=
  [flagByte l.enabled, byteOf l.furnace.val] ++ toBE 2 l.maxGobs ++ toBE 2 l.minMass ++ l.weights.list.map byteOf

/-- A POOL image (R7). -/
def poolOfImage (b : List Byte) : Except Nat PoolEntry :=
  (flagField 1 (natAt b 0)).bind fun en =>
  (codeField 2 (basisOfCode (natAt b 1))).bind fun s =>
  .ok ⟨en, s⟩

/-- The image of a POOL entry without padding (13.5). -/
def poolImage (p : PoolEntry) : List Byte := [flagByte p.enabled, byteOf (basisCode p.basis)]

/-- A CURVE image; every value is in range (R8). -/
def curveOfImage (b : List Byte) : CurveEntry := ⟨Tab.ofFn fun s => beAt b (2 * s.val) 2⟩

/-- The image of a CURVE entry without padding (13.5). -/
def curveImage (c : CurveEntry) : List Byte := c.gains.list.flatMap (toBE 2)

/-- `bs` followed by zeros to `n` bytes: padding reads as 0 (R185). -/
def padTo (n : Nat) (bs : List Byte) : List Byte := bs ++ List.replicate (n - bs.length) 0

/-- The image of the entry `index` of table `table`, without padding; none for a selector outside the tables. -/
def entryImage (m : PlantMap) (table index : Nat) : Option (List Byte) :=
  match table with
  | 0 => (toIdx 1 index).map fun _ => globalImage m.global
  | 1 => (toIdx 8 index).map fun i => linkImage (m.links.get i)
  | 2 => (toIdx 128 index).map fun i => pointImage (m.points.get i)
  | 3 => (toIdx 4 index).map fun i => furnaceImage (m.furnaces.get i)
  | 4 => (toIdx 12 index).map fun i => lineImage (m.lines.get i)
  | 5 => (toIdx 4 index).map fun i => poolImage (m.pools.get i)
  | 6 => (toIdx 8 index).map fun i => curveImage (m.curves.get i)
  | _ => none

/-- The refusal detail of a bad table and entry selector (R9 step 2); none for a good one. -/
def selectorFault (table index : Nat) : Option Detail :=
  match tableEntries table with
  | none => some ⟨tableGlobal, table, 0⟩
  | some n => if index < n then none else some ⟨table, index, 0⟩

/-- The refusal detail of an image whose first offending field is the one answered (R9 step 3). -/
def fieldDetail {α : Type} (table index : Nat) : Except Nat α → Except Detail α
  | .ok a => .ok a
  | .error n => .error ⟨table, index, n⟩

/-- `t` with the value numbered `k` replaced, where `k` numbers one. -/
def setAt {n : Nat} {α : Type} (t : Tab n α) (k : Nat) (a : α) : Tab n α :=
  match toIdx n k with
  | some i => t.set i a
  | none => t

/-- The map with the entry `index` of table `table` replaced by the one the image spells, or the refusal detail of the
first check that fails (R9 steps 2 and 3). -/
def writeEntry (m : PlantMap) (table index : Nat) (image : List Byte) : Except Detail PlantMap :=
  match selectorFault table index with
  | some d => .error d
  | none =>
    match table with
    | 0 => (fieldDetail table index (globalOfImage image)).map fun g => { m with global := g }
    | 1 => (fieldDetail table index (linkOfImage image)).map fun x => { m with links := setAt m.links index x }
    | 2 => (fieldDetail table index (pointOfImage image)).map fun x => { m with points := setAt m.points index x }
    | 3 => (fieldDetail table index (furnaceOfImage image)).map fun x => { m with furnaces := setAt m.furnaces index x }
    | 4 => (fieldDetail table index (lineOfImage image)).map fun x => { m with lines := setAt m.lines index x }
    | 5 => (fieldDetail table index (poolOfImage image)).map fun x => { m with pools := setAt m.pools index x }
    | _ => .ok { m with curves := setAt m.curves index (curveOfImage image) }

/-! ## View bytes (13.3, R186) -/

/-- What a view byte selects: TOTALS or one carrier. -/
inductive View where
  | totals
  | carrier (c : Carrier)
deriving DecidableEq, Repr

/-- A view byte: bits 3 to 0 the view, bit 7 the half (B when set), bits 6 to 4 zero; none for a code that 13.3 does not
list. -/
def viewOfByte (b : Byte) : Option (View × Bool) :=
  if b.toNat / 16 % 8 ≠ 0 then none
  else
    let half := b.getLsbD 7
    if b.toNat % 16 = 15 then some (.totals, half)
    else (carrierOfCode (b.toNat % 16)).map fun c => (.carrier c, half)

end Sys2Proof.Machine
end

