-- ==== Sys2Proof/Machine/Flags.lean ====
section
/-! DEFINITION. Flags: quality sets, findings, error kinds, notices, the status byte and the ALERT lines (R85, R86, R162,
R172, R175, 13.2, 13.3). -/

namespace Sys2Proof.Machine

/-! ## Quality sets (R85) -/

/-- The union of two quality sets. -/
def Quality.union (a b : Quality) : Quality :=
  ⟨a.estimated || b.estimated, a.incomplete || b.incomplete, a.implausible || b.implausible, a.manual || b.manual,
   a.saturated || b.saturated⟩

/-- The set holding ESTIMATED alone. -/
def qEstimated : Quality := ⟨true, false, false, false, false⟩
/-- The set holding INCOMPLETE alone. -/
def qIncomplete : Quality := ⟨false, true, false, false, false⟩
/-- The set holding IMPLAUSIBLE alone. -/
def qImplausible : Quality := ⟨false, false, true, false, false⟩

/-- `q`, with MANUAL added when `m`. -/
def Quality.withManual (q : Quality) (m : Bool) : Quality := { q with manual := q.manual || m }

/-- `q`, with SATURATED added when `b`. -/
def Quality.withSaturated (q : Quality) (b : Bool) : Quality := { q with saturated := q.saturated || b }

/-- `q` where `b`, the empty set otherwise. -/
def Quality.onlyIf (b : Bool) (q : Quality) : Quality := if b then q else .empty

/-- The union of a list of quality sets. -/
def Quality.unionAll (qs : List Quality) : Quality := qs.foldr Quality.union .empty

/-- The quality byte: bit 0 ESTIMATED, 1 INCOMPLETE, 2 IMPLAUSIBLE, 3 MANUAL, 4 SATURATED (13.3). -/
def Quality.byte (q : Quality) : Byte :=
  byteOf (q.estimated.toNat + 2 * q.incomplete.toNat + 4 * q.implausible.toNat + 8 * q.manual.toNat + 16 * q.saturated.toNat)

/-- The findings byte: bit 0 ESTIMATE, 1 POINT_LOST, 2 IMPLAUSIBLE, 3 SATURATED (13.3). -/
def Findings.byte (f : Findings) : Byte :=
  byteOf (f.estimate.toNat + 2 * f.pointLost.toNat + 4 * f.implausible.toNat + 8 * f.saturated.toNat)

/-! ## Error kinds -/

/-- The value of one kind. -/
def PerKind.get {α : Type} (k : PerKind α) : ErrorKind → α
  | .line => k.line
  | .form => k.form
  | .sequence => k.sequence
  | .timing => k.timing

/-- The value of one kind replaced. -/
def PerKind.put {α : Type} (k : PerKind α) (e : ErrorKind) (a : α) : PerKind α :=
  match e with
  | .line => { k with line := a }
  | .form => { k with form := a }
  | .sequence => { k with sequence := a }
  | .timing => { k with timing := a }

/-- Whether some flag is set for a kind whose mask bit is set (R38). -/
def covered (flags mask : PerKind Bool) : Bool :=
  (flags.line && mask.line) || (flags.form && mask.form) || (flags.sequence && mask.sequence) || (flags.timing && mask.timing)

/-! ## Notices (R172, 13.2) -/

/-- The fourteen named notices. -/
inductive Notice where
  | intervalDone | periodClosed | estimate | pointLost | implausible | linkThreshold | saturated | markLost | overrun
  | committed | storeDone | imageFault | accReset | stopped
deriving DecidableEq, Repr

/-- The bit position of a notice (13.2). -/
def noticeBit : Notice → Nat
  | .intervalDone => 0
  | .periodClosed => 1
  | .estimate => 2
  | .pointLost => 3
  | .implausible => 4
  | .linkThreshold => 5
  | .saturated => 6
  | .markLost => 7
  | .overrun => 8
  | .committed => 9
  | .storeDone => 10
  | .imageFault => 11
  | .accReset => 12
  | .stopped => 13

/-- The sixteen-bit word with one notice's bit set. -/
def noticeMask (n : Notice) : BitVec 16 := BitVec.twoPow 16 (noticeBit n)

/-- Whether a notice stands set in a port's unit. -/
def PortUnit.has (u : PortUnit) (n : Notice) : Bool := u.notices.getLsbD (noticeBit n)

/-- Whether the port's ALERT line is low: exactly while it has a set notice whose mask bit is set (R175). -/
def PortUnit.alertLow (u : PortUnit) : Bool := u.notices &&& u.mask != 0

/-- A notice set in one unit. -/
def PortUnit.notify (n : Notice) (u : PortUnit) : PortUnit := { u with notices := u.notices ||| noticeMask n }

/-- A notice set in the units of Ports M, F and E (R172). -/
def Ports.notify (n : Notice) (p : Ports) : Ports := ⟨p.m.notify n, p.f.notify n, p.e.notify n⟩

/-! ## Result codes and the status byte (R162, 13.2) -/

/-- The code of a result (13.2). -/
def resultCode : Result → Nat
  | .noCommand => 0
  | .done => 1
  | .accepted => 2
  | .refusedRights => 3
  | .refusedForm => 4
  | .refusedRange => 5
  | .refusedState => 6
  | .refusedBusy => 7
  | .refusedLate => 8
  | .refusedAhead => 9
  | .refusedProtected => 10
  | .unknown => 11

/-- The code of an accounting state (13.2). -/
def accCode : AccState → Nat
  | .booting => 0
  | .unconfigured => 1
  | .ready => 2
  | .running => 3
  | .stopping => 4

/-- The status byte: accounting state in bits 7 to 5, store busy in bit 4, last result in bits 3 to 0 (R162). -/
def statusByte (acc : AccState) (busy : Bool) (r : Result) : Byte :=
  byteOf (32 * accCode acc + 16 * busy.toNat + resultCode r)

end Sys2Proof.Machine
end

