-- ==== Sys2Proof/Machine/Ops.lean ====
section
/-! DEFINITION. The named operations over the state that several commands share: energies per carrier, the bytes of the image
area, the ports, the slot sets, the banks' roles, the queues' content and the quarantine state. -/

namespace Sys2Proof.Machine

/-! ## Energies per carrier -/

/-- The energy of one carrier. -/
def Kj.get (k : Kj) : Carrier → Nat
  | .fuel => k.fuel
  | .elec => k.elec
  | .oxy => k.oxy
  | .aux => k.aux

/-- The energies given carrier by carrier. -/
def Kj.ofFn (f : Carrier → Nat) : Kj := ⟨f .fuel, f .elec, f .oxy, f .aux⟩

/-- The sum of two energies, carrier by carrier. -/
def Kj.add (a b : Kj) : Kj := ⟨a.fuel + b.fuel, a.elec + b.elec, a.oxy + b.oxy, a.aux + b.aux⟩

/-- The sum over the four carriers: the "total" view (00_scope.md 4.2). -/
def Kj.total (k : Kj) : Nat := k.fuel + k.elec + k.oxy + k.aux

/-- Every carrier limited to `m`. -/
def Kj.limit (m : Nat) (k : Kj) : Kj := ⟨min k.fuel m, min k.elec m, min k.oxy m, min k.aux m⟩

/-- Whether some carrier is above `m`. -/
def Kj.above (m : Nat) (k : Kj) : Bool := m < k.fuel || m < k.elec || m < k.oxy || m < k.aux

/-- `n` of one carrier and 0 of the others. -/
def Kj.single (c : Carrier) (n : Nat) : Kj := Kj.ofFn fun d => if d = c then n else 0

/-- The sum of a list of energies, carrier by carrier. -/
def Kj.sum (ks : List Kj) : Kj := ks.foldr Kj.add .zero

/-- `k` where `b`, no energy otherwise. -/
def Kj.onlyIf (b : Bool) (k : Kj) : Kj := if b then k else .zero

/-! ## The image area: bytes by address, in canonical form (R177) -/

/-- The byte at an address; an address with no entry reads as the erased byte (log entry 6). -/
def Image.read : List Host.Cell → Nat → Byte
  | [], _ => Config.erasedByte
  | (k, b) :: rest, a => if k = a then b else Image.read rest a

/-- The entry for address `a` made `b`, keeping the addresses in order. -/
def Image.insert (a : Nat) (b : Byte) : List Host.Cell → List Host.Cell
  | [] => [(a, b)]
  | (k, c) :: rest =>
    if a < k then (a, b) :: (k, c) :: rest
    else if a = k then (a, b) :: rest
    else (k, c) :: Image.insert a b rest

/-- The byte at address `a` erased and programmed to `b` (R180); the erased byte is held by having no entry. -/
def Image.write (a : Nat) (b : Byte) (m : List Host.Cell) : List Host.Cell :=
  if b = Config.erasedByte then m.filter fun c => c.1 ≠ a else Image.insert a b m

/-- The canonical form: addresses strictly rising and inside the area, no entry equal to the erased byte. -/
abbrev Image.wf (m : List Host.Cell) : Prop :=
  m.Pairwise (fun x y => x.1 < y.1) ∧ ∀ c ∈ m, c.1 < Config.imageSize ∧ c.2 ≠ Config.erasedByte

/-- The `n` bytes from address `a`. -/
def Image.bytes (m : List Host.Cell) (a n : Nat) : List Byte := (List.range n).map fun k => Image.read m (a + k)

/-! ## Ports and notices -/

/-- The unit of one port. -/
def Ports.get (p : Ports) : Port → PortUnit
  | .m => p.m
  | .f => p.f
  | .e => p.e

/-- The unit of one port replaced. -/
def Ports.put (p : Ports) (w : Port) (u : PortUnit) : Ports :=
  match w with
  | .m => { p with m := u }
  | .f => { p with f := u }
  | .e => { p with e := u }

/-- A notice set in Ports M, F and E (R172). -/
def State.notify (n : Notice) (s : State) : State := { s with ports := s.ports.notify n }

/-- A notice set in the three ports where `b`. -/
def State.notifyIf (b : Bool) (n : Notice) (s : State) : State := if b then s.notify n else s

/-- The status byte as the part would send it on a port now (R162). -/
def State.status (s : State) (p : Port) : Byte :=
  statusByte s.ctrl.acc s.store.busy (s.ports.get p).lastResult

/-! ## Slot sets (R49) -/

/-- The slot set with a given status, the lowest-numbered if both have it. -/
def Controller.setWith (c : Controller) (st : SetStatus) : Option (Fin 2) :=
  (indices 2).find? fun i => (c.sets.get i).status == st

/-- Whether the engine is busy: exactly while one set is COMPUTING (R49). -/
def State.busy (s : State) : Bool := (s.ctrl.setWith .computing).isSome

/-- Slot set `i` replaced. -/
def State.putSet (i : Fin 2) (w : SlotSet) (s : State) : State :=
  { s with ctrl := { s.ctrl with sets := s.ctrl.sets.set i w } }

/-- The accounting state replaced. -/
def State.setAcc (a : AccState) (s : State) : State := { s with ctrl := { s.ctrl with acc := a } }

/-! ## Links -/

/-- Link `l` replaced. -/
def State.putLink (l : Fin 8) (k : Link) (s : State) : State := { s with links := s.links.set l k }

/-- Any delivery of link `l` in the open window dropped from its slot (R42). -/
def State.dropDelivery (l : Fin 8) (s : State) : State :=
  match s.ctrl.setWith .opened with
  | some i => s.putSet i { s.ctrl.sets.get i with links := (s.ctrl.sets.get i).links.set l none }
  | none => s

/-- The quarantine state of link `l` derived anew from its flags and the mask in force (R38); a link that enters
quarantine has its delivery in the open window dropped (R42). Closure is judged by the caller. -/
def State.rederive (l : Fin 8) (s : State) : State :=
  let k := s.links.get l
  let q := covered k.flags s.plant.active.global.quarantineMask
  let s' := s.putLink l { k with quarantined := q }
  if q && !k.quarantined then s'.dropDelivery l else s'

/-! ## Residence queues -/

/-- The content of a queue: the per-carrier sum of its records (R102). -/
def queueContent (q : List QueueRecord) : Kj := Kj.sum (q.map (·.energy))

/-- The union of the quality of the records (R102). -/
def queueQuality (q : List QueueRecord) : Quality := Quality.unionAll (q.map (·.quality))

/-- Furnace `f` replaced. -/
def State.putFurnace (f : Fin 4) (x : Furnace) (s : State) : State := { s with furnaces := s.furnaces.set f x }

/-- Each pending lag made the active lag, and absent (R111). -/
def State.applyPendingLags (s : State) : State :=
  { s with furnaces := s.furnaces.mapIdx fun _ f =>
      match f.pendingLag with
      | some l => { f with lag := l, pendingLag := none }
      | none => f }

/-! ## Period banks: roles (R144) -/

/-- The other of two. -/
def other (i : Fin 2) : Fin 2 := if i = 0 then 1 else 0

/-- The number of the ACTIVE bank (R144). -/
def State.activeIdx (s : State) : Fin 2 := if (s.banks.get 0).state = .active then 0 else 1

/-- The ACTIVE bank. -/
def State.activeBank (s : State) : Bank := s.banks.get s.activeIdx

/-- The number of the FROZEN bank, if one is (R144). -/
def State.frozenIdx (s : State) : Option (Fin 2) := (indices 2).find? fun i => (s.banks.get i).state == .frozen

/-- Bank `i` replaced. -/
def State.putBank (i : Fin 2) (b : Bank) (s : State) : State := { s with banks := s.banks.set i b }

/-- Whether the ACTIVE bank holds no interval: a computation that starts now begins a period (R126, R111), and a STOP that finds
no interval makes no swap (R65, R152). DESIGN CHOICE (log entry 39): judged by the interval count, also after it has wrapped
to 0 (R148). -/
def State.beginsPeriod (s : State) : Bool := s.activeBank.count == 0

/-! ## Answers of the owning blocks (R163, R169) -/

/-- A block's answer to a command: a result, or REFUSED_RANGE with its refusal detail. -/
inductive Answer where
  | result (r : Result)
  | range (d : Detail)
deriving DecidableEq, Repr

end Sys2Proof.Machine
end

