-- ==== Sys2Proof/Machine/Banks.lean ====
section
/-! DEFINITION. Period banks: adding an interval, the move of a retired furnace's queue content, the swap (R144 to R154). -/

namespace Sys2Proof.Machine

/-! ## Saturation (R148)

A bank's fields are first summed exactly; then each is limited to 48 bits and the flag tells whether any was above. -/

/-- Whether some accumulator of a furnace record is above 48 bits. -/
def FurnaceRecord.above (r : FurnaceRecord) : Bool :=
  [r.metered, r.attributed, r.noPull, r.hold, r.heatup].any (Kj.above Config.bankMax) || Config.bankMax < r.pull

/-- A furnace record with each accumulator limited to 48 bits. -/
def FurnaceRecord.limit (r : FurnaceRecord) : FurnaceRecord :=
  { r with
    metered := r.metered.limit Config.bankMax, attributed := r.attributed.limit Config.bankMax
    noPull := r.noPull.limit Config.bankMax, hold := r.hold.limit Config.bankMax
    heatup := r.heatup.limit Config.bankMax, pull := min r.pull Config.bankMax }

/-- Whether some accumulator of a line record is above 48 bits. -/
def LineBankRecord.above (r : LineBankRecord) : Bool :=
  [r.furnaceShare, r.direct, r.poolShare].any (Kj.above Config.bankMax) || Config.bankMax < r.grossMass
    || Config.bankMax < r.packedMass

/-- A line record with each accumulator limited to 48 bits. -/
def LineBankRecord.limit (r : LineBankRecord) : LineBankRecord :=
  { r with
    furnaceShare := r.furnaceShare.limit Config.bankMax, direct := r.direct.limit Config.bankMax
    poolShare := r.poolShare.limit Config.bankMax
    grossMass := min r.grossMass Config.bankMax, packedMass := min r.packedMass Config.bankMax }

/-- Whether some accumulator of a pool record is above 48 bits. -/
def PoolRecord.above (r : PoolRecord) : Bool := [r.metered, r.shared, r.unattributed].any (Kj.above Config.bankMax)

/-- A pool record with each accumulator limited to 48 bits. -/
def PoolRecord.limit (r : PoolRecord) : PoolRecord :=
  ⟨r.metered.limit Config.bankMax, r.shared.limit Config.bankMax, r.unattributed.limit Config.bankMax⟩

/-- Whether some accumulator of the plant record is above 48 bits. -/
def PlantRecord.above (r : PlantRecord) : Bool :=
  [r.metered, r.monitor, r.unattributed].any (Kj.above Config.bankMax) || Config.bankMax < r.grossMass
    || Config.bankMax < r.packedMass

/-- The plant record with each accumulator limited to 48 bits. -/
def PlantRecord.limit (r : PlantRecord) : PlantRecord :=
  ⟨r.metered.limit Config.bankMax, r.monitor.limit Config.bankMax, r.unattributed.limit Config.bankMax,
   min r.grossMass Config.bankMax, min r.packedMass Config.bankMax⟩

/-- Whether some accumulator of the bank is above 48 bits. -/
def Bank.above (b : Bank) : Bool :=
  (anyIdx 4 fun f => (b.furnaces.get f).above) || (anyIdx 12 fun l => (b.lines.get l).above)
    || (anyIdx 4 fun p => (b.pools.get p).above) || b.plant.above

/-- The bank with each accumulator limited to 48 bits and the saturation flag set where one was above (R148). -/
def Bank.settle (b : Bank) : Bank :=
  { b with
    saturated := b.saturated || b.above
    furnaces := b.furnaces.mapIdx fun _ r => r.limit
    lines := b.lines.mapIdx fun _ r => r.limit
    pools := b.pools.mapIdx fun _ r => r.limit
    plant := b.plant.limit }

/-! ## Adding an interval (R147) -/

/-- A 32-bit count raised by 1 where `b`; it wraps (R148). -/
def countIf (b : Bool) (c : BitVec 32) : BitVec 32 := if b then c + 1 else c

/-- A furnace's figures of an interval added to its record, exactly. -/
def FurnaceRecord.addInterval (x : FurnaceResult) (r : FurnaceRecord) : FurnaceRecord :=
  { r with
    metered := r.metered.add x.metered, attributed := r.attributed.add x.attributed, noPull := r.noPull.add x.noPull
    hold := r.hold.add x.hold, heatup := r.heatup.add x.heatup, pull := r.pull + x.pull
    meltCount := countIf (x.state == .melt) r.meltCount
    holdCount := countIf (x.state == .hold) r.holdCount
    heatupCount := countIf (x.state == .heatup) r.heatupCount
    estimatedCount := countIf x.quality.estimated r.estimatedCount
    incompleteCount := countIf x.quality.incomplete r.incompleteCount }

/-- A line's figures of an interval added to its record, exactly. -/
def LineBankRecord.addInterval (x : LineResult) (r : LineBankRecord) : LineBankRecord where
  furnaceShare := r.furnaceShare.add x.furnaceShare
  direct := r.direct.add x.direct
  poolShare := r.poolShare.add x.poolShare
  grossMass := r.grossMass + x.grossMass
  packedMass := r.packedMass + x.packedMass
  runningCount := countIf (x.state == .running) r.runningCount
  jobChangeCount := countIf (x.state == .jobChange) r.jobChangeCount
  stoppedCount := countIf (x.state == .stopped) r.stoppedCount
  offCount := countIf (x.state == .off) r.offCount
  estimatedCount := countIf x.quality.estimated r.estimatedCount
  incompleteCount := countIf x.quality.incomplete r.incompleteCount
  implausibleCount := countIf x.quality.implausible r.implausibleCount
  manualCount := countIf x.quality.manual r.manualCount
  saturatedCount := countIf x.quality.saturated r.saturatedCount

/-- A pool's figures of an interval added to its record, exactly. -/
def PoolRecord.addInterval (x : PoolResult) (r : PoolRecord) : PoolRecord :=
  ⟨r.metered.add x.metered, r.shared.add x.shared, r.unattributed.add x.unattributed⟩

/-- The plant's figures of an interval added to its record, exactly. -/
def PlantRecord.addInterval (x : PlantResult) (r : PlantRecord) : PlantRecord :=
  ⟨r.metered.add x.metered, r.monitor.add x.monitor, r.unattributed.add x.unattributed, r.grossMass + x.grossMass,
   r.packedMass + x.packedMass⟩

/-- The record with a present entry's figures added; an absent entry adds nothing (R147). -/
def addPresent {α β : Type} (add : α → β → β) (x : Option α) (r : β) : β :=
  match x with
  | some e => add e r
  | none => r

/-- The interval of a result table added to the bank, exactly, before saturation (R147). -/
def Bank.addExact (t : ResultTable) (b : Bank) : Bank :=
  { b with
    first := if b.count = 0 then t.header.interval else b.first
    last := t.header.interval
    count := b.count + 1
    furnaces := b.furnaces.mapIdx fun f r => addPresent FurnaceRecord.addInterval (t.furnaces.get f) r
    lines := b.lines.mapIdx fun l r => addPresent LineBankRecord.addInterval (t.lines.get l) r
    pools := b.pools.mapIdx fun p r => addPresent PoolRecord.addInterval (t.pools.get p) r
    plant := b.plant.addInterval t.plant }

/-- The interval of a result table added to the bank (R147), with saturation; `queueSaturated` marks an interval whose
queue record saturated (R105, R148). -/
def Bank.addInterval (t : ResultTable) (queueSaturated : Bool) (b : Bank) : Bank :=
  let b' := (b.addExact t).settle
  { b' with saturated := b'.saturated || queueSaturated }

/-- Whether adding the interval saturates the bank (R148): a sum above 48 bits, or a saturated queue record. -/
def Bank.addSaturates (t : ResultTable) (queueSaturated : Bool) (b : Bank) : Bool :=
  (b.addExact t).above || queueSaturated

/-! ## The move of a retired furnace's queue content (R16, R151) -/

/-- Queue content added to furnace `f`'s no-pull energy, exactly. -/
def Bank.addNoPull (f : Fin 4) (k : Kj) (b : Bank) : Bank :=
  { b with furnaces := b.furnaces.modify f fun r => { r with noPull := r.noPull.add k } }

/-- Furnace `f`'s queue emptied into its no-pull account of the ACTIVE bank; a saturating move sets the bank's flag and
the SATURATED notice (R16, R151). -/
def State.retireFurnace (f : Fin 4) (s : State) : State :=
  let x := s.furnaces.get f
  let moved := s.activeBank.addNoPull f (queueContent x.queue)
  ((s.putBank s.activeIdx moved.settle).putFurnace f { x with queue := [] }).notifyIf moved.above .saturated

/-! ## The swap (R153) -/

/-- The content of each furnace's queue, per carrier (R149). -/
def State.inProcess (s : State) : Tab 4 Kj := s.furnaces.mapIdx fun _ f => queueContent f.queue

/-- The ACTIVE bank frozen with its close cause, in-process now taken from the queues (R153 step 1). -/
def Bank.freeze (cause : CloseCause) (now : Tab 4 Kj) (b : Bank) : Bank :=
  { b with
    state := .frozen, cause := some cause
    furnaces := b.furnaces.mapIdx fun f r => { r with nowFrozen := now.get f } }

/-- The other bank cleared and made ACTIVE, with in-process at start taken from the queues (R153 step 2). -/
def Bank.fresh (period : BitVec 32) (now : Tab 4 Kj) : Bank :=
  { Bank.cleared .active period with furnaces := Tab.ofFn fun f => { FurnaceRecord.zero with atStart := now.get f } }

/-- The swap of the period banks, with PERIOD_CLOSED set in the three ports (R153). -/
def State.swap (cause : CloseCause) (s : State) : State :=
  let a := s.activeIdx
  let b := s.activeBank
  ((s.putBank a (b.freeze cause s.inProcess)).putBank (other a) (Bank.fresh (b.period + 1) s.inProcess)).notify .periodClosed

end Sys2Proof.Machine
end

