-- ==== Sys2Proof/Machine/Frames.lean ====
section
/-! DEFINITION. Meter link receivers: the word check and the decoder (R22 to R30, 13.1). -/

namespace Sys2Proof.Machine

/-- Whether the number of ones among the sixteen data bits, S, E and P is even (R22). -/
def parityEven (w : LinkWord) : Bool :=
  !((indices 16).foldl (fun b i => b ^^ w.data.getLsbD i.val) (w.s ^^ w.e ^^ w.p))

/-- Whether a word passes its parity and stop-bit checks (R22). -/
def wordGood (w : LinkWord) : Bool := parityEven w && w.stop

/-- The class of a good word, from its S and E flags (R22). -/
inductive WordClass where
  | header | plain | last | abort
deriving DecidableEq, Repr

/-- S 1 E 0 header, S 0 E 0 plain, S 0 E 1 end, S 1 E 1 abort (R22). -/
def wordClass (w : LinkWord) : WordClass :=
  match w.s, w.e with
  | true, false => .header
  | false, false => .plain
  | false, true => .last
  | true, true => .abort

/-- The kind field of a header: 01 REPORT, 10 HEARTBEAT, 00 and 11 invalid (13.1). -/
def frameKindOf (d : BitVec 16) : Option FrameKind :=
  match (d.extractLsb' 14 2).toNat with
  | 1 => some .report
  | 2 => some .heartbeat
  | _ => none

/-- The header a word's data bits spell, where its kind is valid (13.1). -/
def headerOf (d : BitVec 16) : Option Header :=
  (frameKindOf d).map fun k => ⟨k, d.extractLsb' 10 4, (d.extractLsb' 5 5).toNat, (d.extractLsb' 0 5).toNat⟩

/-- Whether the point count suits the kind: 1 to 16 for a REPORT, 0 for a HEARTBEAT (R24 condition 2). -/
def countSuits (h : Header) : Bool :=
  match h.kind with
  | .report => decide (1 ≤ h.pointCount ∧ h.pointCount ≤ 16)
  | .heartbeat => h.pointCount == 0

/-- Whether a header passes conditions 2 to 4 of R24 against the link's active entry. -/
def headerPasses (entry : LinkEntry) (h : Header) : Bool :=
  countSuits h && (h.kind == .heartbeat || decide (h.pointCount ≤ entry.pointCount)) && h.concentrator == entry.concentrator

/-- What a word does to its receiver: the receiver after it, the error events it reports in order, and the frame taken. -/
structure WordEffect where
  rx     : Receiver
  events : List ErrorKind
  frame  : Option Delivery
deriving DecidableEq, Repr

/-- The receiver moved to a decoder state with nothing else changed; the stray-run flag is clear outside a stray run. -/
def Receiver.goto (r : Receiver) (d : Decoder) : Receiver := { r with decoder := d, strayRun := false }

/-- The frame in progress (or the frame a bad header would have opened) discarded (R28). -/
def Receiver.discard (r : Receiver) (d : Decoder) : Receiver := { r.goto d with discarded := r.discarded + 1 }

/-- A header word judged by R24. -/
def judgeHeader (entry : LinkEntry) (d : BitVec 16) (r : Receiver) : WordEffect :=
  match headerOf d with
  | some h => if headerPasses entry h then ⟨r.goto (.tag h), [], none⟩ else ⟨r.discard .discard, [.form], none⟩
  | none => ⟨r.discard .discard, [.form], none⟩

/-- A header inside a frame: one FORM event for the frame it breaks, then the new header judged (R25, R26). -/
def headerInside (entry : LinkEntry) (d : BitVec 16) (r : Receiver) : WordEffect :=
  let x := judgeHeader entry d (r.discard .hunt)
  { x with events := .form :: x.events }

/-- A frame taken: its sequence checked, counted, handed on (R29). -/
def takeFrame (h : Header) (f : Delivery) (r : Receiver) : WordEffect :=
  ⟨{ r.goto .hunt with lastSeq := h.sequence, armed := true, taken := r.taken + 1 },
   if r.armed && h.sequence != r.lastSeq + 1 then [.sequence] else [], some f⟩

/-- A frame discarded with a FORM event (R25, R26). -/
def formDiscard (d : Decoder) (r : Receiver) : WordEffect := ⟨r.discard d, [.form], none⟩

/-- A good word in HUNT (R23). -/
def wordInHunt (entry : LinkEntry) (w : LinkWord) (r : Receiver) : WordEffect :=
  match wordClass w with
  | .header => judgeHeader entry w.data { r with strayRun := false }
  | _ => if r.strayRun then ⟨r, [], none⟩ else ⟨{ r with strayRun := true }, [.form], none⟩

/-- A good word in TAG (R25). -/
def wordInTag (entry : LinkEntry) (h : Header) (w : LinkWord) (r : Receiver) : WordEffect :=
  match wordClass w, h.kind with
  | .plain, .report => ⟨r.goto (.points h w.data [] none), [], none⟩
  | .plain, .heartbeat => formDiscard .discard r
  | .last, .report => formDiscard .hunt r
  | .last, .heartbeat => takeFrame h ⟨.heartbeat, w.data, []⟩ r
  | .header, _ => headerInside entry w.data r
  | .abort, _ => formDiscard .hunt r

/-- Word A of a slot: bit 15 FAULT, bit 14 MANUAL, bits 7 to 0 the count's bits 23 to 16; bits 13 to 8 ignored (13.1). -/
def wordAOf (d : BitVec 16) : WordA := ⟨d.getLsbD 15, d.getLsbD 14, d.extractLsb' 0 8⟩

/-- The reading made of word A and word B of a slot (13.1). -/
def readingOf (a : WordA) (b : BitVec 16) : Reading := ⟨a.high ++ b, a.fault, a.manual⟩

/-- A good word in POINTS (R26). -/
def wordInPoints (entry : LinkEntry) (h : Header) (tag : BitVec 16) (got : List Reading) (a : Option WordA)
    (w : LinkWord) (r : Receiver) : WordEffect :=
  match wordClass w, a with
  | .header, _ => headerInside entry w.data r
  | .abort, _ => formDiscard .hunt r
  | .plain, none => ⟨r.goto (.points h tag got (some (wordAOf w.data))), [], none⟩
  | .last, none => formDiscard .hunt r
  | .plain, some x =>
    if got.length + 1 < h.pointCount then ⟨r.goto (.points h tag (got ++ [readingOf x w.data]) none), [], none⟩
    else formDiscard .discard r
  | .last, some x =>
    if got.length + 1 < h.pointCount then formDiscard .hunt r
    else takeFrame h ⟨h.kind, tag, got ++ [readingOf x w.data]⟩ r

/-- A good word in DISCARD (R27). -/
def wordInDiscard (entry : LinkEntry) (w : LinkWord) (r : Receiver) : WordEffect :=
  match wordClass w with
  | .header => judgeHeader entry w.data r
  | .plain => ⟨r, [], none⟩
  | .last => ⟨r.goto .hunt, [], none⟩
  | .abort => ⟨r.goto .hunt, [], none⟩

/-- A word that fails its check: one LINE error, its flags and data not read (R22). -/
def badWord (r : Receiver) : WordEffect :=
  match r.decoder with
  | .hunt => ⟨r, [.line], none⟩
  | .tag _ => ⟨r.discard .discard, [.line], none⟩
  | .points _ _ _ _ => ⟨r.discard .discard, [.line], none⟩
  | .discard => ⟨r, [.line], none⟩

/-- A word that reaches the decoder (R22), against the link's active entry in force at its arrival. -/
def receiveWord (entry : LinkEntry) (w : LinkWord) (r : Receiver) : WordEffect :=
  if wordGood w then
    match r.decoder with
    | .hunt => wordInHunt entry w r
    | .tag h => wordInTag entry h w r
    | .points h tag got a => wordInPoints entry h tag got a w r
    | .discard => wordInDiscard entry w r
  else badWord r

/-- The decoder returned to HUNT and the sequence check rearmed by a change of mode; a frame in progress is dropped
uncounted (R17, R32). -/
def Receiver.modeChanged (r : Receiver) : Receiver := { r.goto .hunt with armed := false }

/-! ## Frames as words (R20, 13.1): the other direction -/

/-- A good word with these data bits and flags: P makes the number of ones even, and the stop bit is high (R22, 13.1). -/
def goodWord (d : BitVec 16) (s e : Bool) : LinkWord :=
  ⟨d, s, e, (indices 16).foldl (fun b i => b ^^ d.getLsbD i.val) (s ^^ e), true⟩

/-- The kind field of a header (13.1). -/
def frameKindBits : FrameKind → BitVec 2
  | .report => 1
  | .heartbeat => 2

/-- The data bits of a header word (13.1). -/
def headerData (h : Header) : BitVec 16 :=
  frameKindBits h.kind ++ h.sequence ++ BitVec.ofNat 5 h.pointCount ++ BitVec.ofNat 5 h.concentrator

/-- The data bits of word A of a slot (13.1). -/
def wordAData (r : Reading) : BitVec 16 :=
  BitVec.ofBool r.fault ++ BitVec.ofBool r.manual ++ 0#6 ++ r.value.extractLsb' 16 8

/-- The words of the slots from here on, the last of them the end word (2.3, 13.1). -/
def slotWords : List Reading → List LinkWord
  | [] => []
  | r :: rest =>
    goodWord (wordAData r) false false :: goodWord (r.value.extractLsb' 0 16) false rest.isEmpty :: slotWords rest

/-- The words of a frame: header, tag, and two words for each slot; the last word is the end word (2.3, 13.1). -/
def frameWords (h : Header) (tag : BitVec 16) (readings : List Reading) : List LinkWord :=
  goodWord (headerData h) true false :: goodWord tag false readings.isEmpty :: slotWords readings

/-- What a run of words does to a receiver under one LINK entry: the receiver after it, every error event in order, and every
frame taken in order. -/
def receiveWords (entry : LinkEntry) : List LinkWord → Receiver → Receiver × List ErrorKind × List Delivery
  | [], r => (r, [], [])
  | w :: ws, r =>
    let x := receiveWord entry w r
    let y := receiveWords entry ws x.rx
    (y.1, x.events ++ y.2.1, x.frame.toList ++ y.2.2)

end Sys2Proof.Machine
end

