-- ==== Sys2Proof/Machine/Apply.lean ====
section
/-! DEFINITION. The apply of the staged map with its effects on running state (R13 to R18), and the start of an interval
computation with its stage 1 (R56, R111, R126). -/

namespace Sys2Proof.Machine

/-! ## Source records set to UNSET (R15, R87) -/

/-- The shared part of a record set to UNSET; the last reconciled interval is kept (R87). -/
def SrcHead.toUnset (h : SrcHead) : SrcHead := ⟨.unset, 0, .empty, h.interval⟩

/-- A point record set to UNSET (R87). -/
def PointRecord.toUnset (r : PointRecord) : PointRecord := ⟨r.head.toUnset, .zero⟩

/-- A line record set to UNSET; its gob mass is kept (R87). -/
def LineRecord.toUnset (r : LineRecord) : LineRecord := ⟨r.head.toUnset, .zero, .zero, r.gobMass⟩

/-- Every source record set to UNSET (R51, R67). -/
def SourceTable.allUnset (t : SourceTable) : SourceTable :=
  ⟨t.points.mapIdx fun _ r => r.toUnset, t.lines.mapIdx fun _ r => r.toUnset⟩

/-! ## The apply (R14 to R18) -/

/-- R15: the sources whose enabled field differs are UNSET, and such a point's residue is 0. -/
def State.clearChangedSources (old new : PlantMap) (s : State) : State :=
  let pointChanged (p : Fin 128) : Bool := (old.points.get p).enabled != (new.points.get p).enabled
  let lineChanged (l : Fin 12) : Bool := (old.lines.get l).enabled != (new.lines.get l).enabled
  { s with
    sources :=
      ⟨s.sources.points.mapIdx fun p r => if pointChanged p then r.toUnset else r,
       s.sources.lines.mapIdx fun l r => if lineChanged l then r.toUnset else r⟩
    residues := s.residues.mapIdx fun p r => if pointChanged p then 0 else r }

/-- R16: each furnace enabled before and disabled now has its queue emptied into its no-pull account. -/
def State.retireFurnaces (old new : PlantMap) (s : State) : State :=
  (indices 4).foldl (fun s f =>
    if (old.furnaces.get f).enabled && !(new.furnaces.get f).enabled then s.retireFurnace f else s) s

/-- R17: each link whose mode differs has its decoder in HUNT and its sequence check rearmed. -/
def State.resetChangedLinks (old new : PlantMap) (s : State) : State :=
  { s with links := s.links.mapIdx fun l k =>
      if (old.links.get l).mode = (new.links.get l).mode then k else { k with rx := k.rx.modeChanged } }

/-- R17, R38: the quarantine state of every link derived anew. -/
def State.rederiveAll (s : State) : State := (indices 8).foldl (fun s l => s.rederive l) s

/-- An apply (R14): the staged map copied into the active map, commit-pending cleared, COMMITTED set in the three ports, and
the effects of R15 to R18 on running state. The open window's expected set follows by itself, being formed anew whenever
closure is judged (R57); the caller judges closure. -/
def State.applyMap (s : State) : State :=
  let old := s.plant.active
  let new := s.plant.staged
  let s1 := { s with plant := ⟨new, new, false⟩ }
  ((((s1.clearChangedSources old new).retireFurnaces old new).resetChangedLinks old new).rederiveAll).notify .committed

/-! ## The start of a computation (R56, R126) -/

/-- Whether a pending commit is due at a computation that starts now: at once where commit-at-period of the active GLOBAL
entry is 0, else at a computation that begins a period (R13). -/
def State.commitDue (s : State) : Bool :=
  s.plant.commitPending && (!s.plant.active.global.commitAtPeriod || s.beginsPeriod)

/-- The working copy at stage 1: it holds the window's interval, every entry absent, every finding clear (R139). DESIGN CHOICE
(log entry 40): the plant entry and the header fields that later stages write are zero. -/
def ResultTable.blank (n : BitVec 32) : ResultTable where
  header := ⟨n, 0, none, .const 8 false, .const 12 false, .clear⟩
  points := .const 128 none
  lines := .const 12 none
  furnaces := .const 4 none
  pools := .const 4 none
  plant := ⟨.zero, .zero, .zero, 0, 0, 0, .empty, .empty, 0⟩

/-- The computation of the window in set `i` starts: the set becomes COMPUTING, line and furnace states are sampled, the
accumulators and the working copy are cleared, a pending commit due is applied, the pending lags due are applied where the
computation begins a period (judged before the apply), and the quarantine states are sampled as they then stand
(R56, R126). -/
def State.startComputation (i : Fin 2) (s : State) : State :=
  let begins := s.beginsPeriod
  let w := s.ctrl.sets.get i
  let s1 := { s.putSet i { w with status := .computing } with
    engine := { Engine.idle with
      phase := .started
      lineStates := s.ctrl.lineStates
      furnaceStates := s.furnaces.mapIdx fun _ (f : Furnace) => f.state }
    working := some (.blank w.interval) }
  let s2 := if s.commitDue then s1.applyMap else s1
  let s3 := if begins then s2.applyPendingLags else s2
  { s3 with engine := { s3.engine with quarantined := s3.links.mapIdx fun _ (k : Link) => k.quarantined } }

/-! ## Closure (R55, R57, R58) -/

/-- Whether link `l` is in the expected set: mode LIVE or TEST, and not quarantined (R57). -/
def State.linkExpected (s : State) (l : Fin 8) : Bool :=
  (s.plant.active.links.get l).mode != .off && !(s.links.get l).quarantined

/-- Whether line `l` is in the expected set: enabled, and its state not OFF (R57). -/
def State.lineExpected (s : State) (l : Fin 12) : Bool :=
  (s.plant.active.lines.get l).enabled && s.ctrl.lineStates.get l != .off

/-- Whether every member of the expected set has delivered to window `w` (R57). -/
def State.allIn (s : State) (w : SlotSet) : Bool :=
  (allIdx 8 fun l => !s.linkExpected l || (w.links.get l).isSome)
    && (allIdx 12 fun l => !s.lineExpected l || (w.lines.get l).isSome)

/-- The window in set `i` closes: the last closed interval number becomes its number, and its computation starts, or the
set waits while the engine is busy (R55). With `hold` set (a run of injected words in progress, R34) a closure that would
apply a pending commit leaves the set WAITING until the run ends (log entry 14). -/
def State.closeWindow (hold : Bool) (i : Fin 2) (s : State) : State :=
  let w := s.ctrl.sets.get i
  let s1 := { s with ctrl := { s.ctrl with lastClosed := w.interval } }
  if s.busy || (hold && s.commitDue) then s1.putSet i { w with status := .waiting } else s1.startComputation i

/-- Closure judged (R58): the open window, if every member of its expected set has delivered, closes all-in. -/
def State.judgeClosure (hold : Bool) (s : State) : State :=
  match s.ctrl.setWith .opened with
  | some i => if s.allIn (s.ctrl.sets.get i) then s.closeWindow hold i else s
  | none => s

/-- A WAITING set's computation starts where the engine is idle (R55, R56). -/
def State.startWaiting (s : State) : State :=
  match s.ctrl.setWith .waiting with
  | some i => if s.busy then s else s.startComputation i
  | none => s

/-! ## The return to READY from a stop (R65, R66) -/

/-- The accounting state becomes READY at the end of a stop: STOPPED is set in the three ports, the pending lags become
active (R111) and a commit still pending is applied (R13, R66). -/
def State.returnToReady (s : State) : State :=
  let s1 := ((s.setAcc .ready).notify .stopped).applyPendingLags
  if s1.plant.commitPending then s1.applyMap else s1

end Sys2Proof.Machine
end

