-- ==== Sys2Proof/Machine/Images.lean ====
section
/-! DEFINITION. The configuration image: its bytes, its judgement, and the four checks of COMMIT that judgement shares
(R12, R178, 13.7). -/

namespace Sys2Proof.Machine

/-! ## The four checks over a map as a whole (R12) -/

/-- Whether the entry a target names is enabled; MONITOR names none (R12 check 2). -/
def targetEnabled (m : PlantMap) : Target → Bool
  | .furnace f => (m.furnaces.get f).enabled
  | .line l => (m.lines.get l).enabled
  | .pool p => (m.pools.get p).enabled
  | .monitor => true

/-- Checks 1 and 2 at one point: the refusal detail of the one that fails (R12). -/
def pointCheck (m : PlantMap) (p : Fin 128) : Option Detail :=
  let e := m.points.get p
  if !e.enabled then none
  else if ¬ p.val % 16 < (m.links.get ⟨p.val / 16, by omega⟩).pointCount then some ⟨tablePoint, p.val, 1⟩
  else if !targetEnabled m e.target then some ⟨tablePoint, p.val, 2⟩
  else none

/-- Check 3 at one line (R12). -/
def lineCheck (m : PlantMap) (l : Fin 12) : Option Detail :=
  let e := m.lines.get l
  if e.enabled && !(m.furnaces.get e.furnace).enabled then some ⟨tableLine, l.val, 3⟩ else none

/-- The refusal detail of the first check a map fails, the tables scanned from index 0 upward (R12). -/
def mapCheck (m : PlantMap) : Option Detail :=
  match (indices 128).findSome? (pointCheck m) with
  | some d => some d
  | none =>
    match (indices 12).findSome? (lineCheck m) with
    | some d => some d
    | none => if anyIdx 4 fun f => (m.furnaces.get f).enabled then none else some ⟨tableFurnace, 0, 4⟩

/-! ## The bytes of an image (13.7) -/

/-- The format tag of an image (R178). -/
def imageTag : Nat := 0x5E12
/-- The version of an image (R178). -/
def imageVersion : Nat := 1
/-- The body length of version 1 (13.7). -/
def bodyLength : Nat := 2012

/-- The body: every entry's image, padded to its size with 0, and the four lags (13.7). -/
def bodyBytes (m : PlantMap) (lags : Tab 4 Nat) : List Byte :=
  padTo 8 (globalImage m.global)
    ++ m.links.list.flatMap (fun e => padTo 4 (linkImage e))
    ++ m.points.list.flatMap (fun e => padTo 12 (pointImage e))
    ++ m.furnaces.list.flatMap (fun e => padTo 4 (furnaceImage e))
    ++ m.lines.list.flatMap (fun e => padTo 12 (lineImage e))
    ++ m.pools.list.flatMap (fun e => padTo 4 (poolImage e))
    ++ m.curves.list.flatMap (fun e => padTo 32 (curveImage e))
    ++ lags.list.map byteOf

/-- The sum, modulo 2^32, of a byte sequence taken as 32-bit words, most significant byte first (R178 step 4). -/
def checkWord : List Byte → Nat
  | a :: b :: c :: d :: rest => (beNat [a, b, c, d] + checkWord rest) % 4294967296
  | _ => 0

/-- The header of an image with this body (13.7). -/
def headerBytes (body : List Byte) : List Byte :=
  toBE 2 imageTag ++ toBE 2 imageVersion ++ toBE 4 bodyLength ++ toBE 4 (checkWord body)

/-- The 4,096 bytes a SAVE IMAGE of this snapshot writes (R180, 13.7). -/
def imageBytes (m : PlantMap) (lags : Tab 4 Nat) : List Byte :=
  let body := bodyBytes m lags
  padTo Config.imageSize (headerBytes body ++ body)

/-! ## Judging an image (R178) -/

/-- The outcome of a judgement: the map and lags of a good image, or the step that failed. -/
inductive Verdict where
  | good (m : PlantMap) (lags : Tab 4 Nat)
  | bad (step : Nat)
deriving DecidableEq, Repr

/-- The values of a table where every one is present. -/
def allSome {n : Nat} {α : Type} (d : α) (t : Tab n (Option α)) : Option (Tab n α) :=
  if t.list.all Option.isSome then some (t.mapIdx fun _ x => x.getD d) else none

/-- The entry `k` of a table of the body that starts at `base` with entries of `size` bytes, where its fields are in range
(R178 step 5). -/
def bodyEntry {α : Type} (read : List Byte → Except Nat α) (body : List Byte) (base size k : Nat) : Option α :=
  (read ((body.drop (base + size * k)).take size)).toOption

/-- The map a body holds, where every field of every entry is in range (R178 step 5). -/
def mapOfBody (body : List Byte) : Option PlantMap :=
  let dflt := PlantMap.empty
  (bodyEntry globalOfImage body 0 8 0).bind fun g =>
  (allSome (dflt.links.get 0) (Tab.ofFn fun i => bodyEntry linkOfImage body 8 4 i.val)).bind fun links =>
  (allSome (dflt.points.get 0) (Tab.ofFn fun i => bodyEntry pointOfImage body 40 12 i.val)).bind fun points =>
  (allSome (dflt.furnaces.get 0) (Tab.ofFn fun i => bodyEntry furnaceOfImage body 1576 4 i.val)).bind fun furnaces =>
  (allSome (dflt.lines.get 0) (Tab.ofFn fun i => bodyEntry lineOfImage body 1592 12 i.val)).bind fun lines =>
  (allSome (dflt.pools.get 0) (Tab.ofFn fun i => bodyEntry poolOfImage body 1736 4 i.val)).bind fun pools =>
  some ⟨g, links, points, furnaces, lines, pools,
    Tab.ofFn fun i => curveOfImage ((body.drop (1752 + 32 * i.val)).take 32)⟩

/-- The lags a body holds, where each is 0 to 63 (R178 step 5). -/
def lagsOfBody (body : List Byte) : Option (Tab 4 Nat) :=
  let lags : Tab 4 Nat := Tab.ofFn fun f => natAt body (2008 + f.val)
  if lags.list.all fun l => decide (l ≤ 63) then some lags else none

/-- Steps 5 and 6 of the judgement, on a body whose header passed. -/
def judgeBody (body : List Byte) : Verdict :=
  match mapOfBody body, lagsOfBody body with
  | some m, some lags => if (mapCheck m).isNone then .good m lags else .bad 6
  | _, _ => .bad 5

/-- The image area judged by six steps; the first that fails makes it bad (R178). -/
def judgeImage (img : List Host.Cell) : Verdict :=
  let body := Image.bytes img 12 bodyLength
  if beNat (Image.bytes img 0 2) ≠ imageTag then .bad 1
  else if beNat (Image.bytes img 2 2) ≠ imageVersion then .bad 2
  else if beNat (Image.bytes img 4 4) ≠ bodyLength then .bad 3
  else if beNat (Image.bytes img 8 4) ≠ checkWord body then .bad 4
  else judgeBody body

end Sys2Proof.Machine
end

