-- ==== Sys2Proof/Machine/Windows.lean ====
section
/-! DEFINITION. Link error events and quarantine (R39 to R46), deliveries and tags (R59, R60), and the arrival of a word at a
receiver (R21). -/

namespace Sys2Proof.Machine

/-! ## Error events (R39, R40) -/

/-- A counter raised by an error event: at 255 it stays under HOLD and becomes 0 under WRAP (R39). -/
def raiseCounter (wrap : Bool) (c : BitVec 8) : BitVec 8 := if c = 255 then (if wrap then 0 else 255) else c + 1

/-- One error event of a kind on link `l`: the counter rises (R39); where it becomes equal to the threshold the flag is set
and, if the flag was clear, LINK_THRESHOLD in the three ports (R40); quarantine is derived anew (R38, R42). Closure is judged
by the caller. -/
def State.errorEvent (l : Fin 8) (e : ErrorKind) (s : State) : State :=
  let g := s.plant.active.global
  let k := s.links.get l
  let old := k.counts.get e
  let new := raiseCounter (g.wrapMask.get e) old
  let reached := new != old && new.toNat == g.threshold
  let k' := { k with counts := k.counts.put e new, flags := k.flags.put e (k.flags.get e || reached) }
  ((s.putLink l k').notifyIf (reached && !k.flags.get e) .linkThreshold).rederive l

/-! ## Judging a tag (R59) -/

/-- The judgement of a delivery's tag. -/
inductive Judgement where
  | taken (i : Fin 2)
  | late
  | ahead
deriving DecidableEq, Repr

/-- The low 16 bits of an interval number: its tag (00_scope.md 4.4). -/
def tagOf (n : BitVec 32) : BitVec 16 := n.setWidth 16

/-- A tag judged against the open window, or with none open against the last closed interval (R59). -/
def State.judgeTag (tag : BitVec 16) (s : State) : Judgement :=
  match s.ctrl.setWith .opened with
  | some i =>
    let d := (tagOf (s.ctrl.sets.get i).interval - tag).toNat
    if d = 0 then .taken i else if d ≤ 32767 then .late else .ahead
  | none =>
    let d := (tagOf s.ctrl.lastClosed - tag).toNat
    if d ≤ 32767 then .late else .ahead

/-- Whether deliveries are judged: in RUNNING and STOPPING (R59). -/
def State.accounting (s : State) : Bool := s.ctrl.acc == .running || s.ctrl.acc == .stopping

/-- A delivery from link `l` at the collection controller (R60): placed in its slot of the open window, replacing any
delivery there, or dropped with one TIMING event; dropped without judgement outside RUNNING and STOPPING. Closure is judged
by the caller. -/
def State.deliver (l : Fin 8) (d : Delivery) (s : State) : State :=
  if s.accounting then
    match s.judgeTag d.tag with
    | .taken i => s.putSet i { s.ctrl.sets.get i with links := (s.ctrl.sets.get i).links.set l (some d) }
    | .late => s.errorEvent l .timing
    | .ahead => s.errorEvent l .timing
  else s

/-! ## Words (R21, R34) -/

/-- A word that reaches the decoder of link `l`: the receiver's change, its error events in order, then the delivery of a
frame taken unless the link is quarantined by then (R22, R29, R33). DESIGN CHOICE (log entry 33): where an event
of a word quarantines the link, the rest of that word comes before closure is judged: a second FORM event (R25), and for a frame
taken with a SEQUENCE event its sequence number, the armed flag and the frame count (R29). R42 does not say whether the all-in
closure, with the due apply it may bring, comes between them; an apply that changes the link's mode leaves the armed flag clear. -/
def State.wordArrives (l : Fin 8) (w : LinkWord) (s : State) : State :=
  let k := s.links.get l
  let x := receiveWord (s.plant.active.links.get l) w k.rx
  let s1 := x.events.foldl (fun s e => s.errorEvent l e) (s.putLink l { k with rx := x.rx })
  match x.frame with
  | some d => if (s1.links.get l).quarantined then s1 else s1.deliver l d
  | none => s1

/-- A word from the wire of link `l` (R21): decoded in LIVE, ignored in OFF and in TEST; closure is judged after it. -/
def State.wireWord (l : Fin 8) (w : LinkWord) (s : State) : State :=
  if (s.plant.active.links.get l).mode = .live then (s.wordArrives l w).judgeClosure false else s

/-- The next word of a run of injected words (R34). -/
def State.injectWord (l : Fin 8) (w : LinkWord) (s : State) : State := (s.wordArrives l w).judgeClosure true

/-- A run of injected words, decoded one after another; a computation held back by the run starts at its end (R34,
log entry 14). -/
def State.injectRun (l : Fin 8) (ws : List LinkWord) (s : State) : State :=
  (ws.foldl (fun s w => s.injectWord l w) s).startWaiting

/-! ## Clearing (R45) -/

/-- The change CLEAR LINK COUNTERS makes at one link, with its release from quarantine (R44, R45). -/
def State.clearLink (l : Fin 8) (s : State) : State :=
  let k := s.links.get l
  (s.putLink l { k with
    counts := .const 0, flags := .const false
    rx := { k.rx with taken := 0, discarded := 0, armed := false } }).rederive l

end Sys2Proof.Machine
end

