-- ==== Sys2Proof/Machine/Sources.lean ====
section
/-! DEFINITION. Reconciliation: cumulative readings turned into counts booked to one interval (R69 to R86). -/

namespace Sys2Proof.Machine

/-! ## One counter (R73 to R82) -/

/-- The distance a register has moved since its baseline, counted forward through its wrap (R73). -/
def increment (modulus v base : Nat) : Nat := (v + modulus - base % modulus) % modulus

/-- A counter set rebased on `v` with nothing booked: the baseline taken on leaving UNSET or LOST (R74, R81). -/
def CounterSet.rebased (v : Nat) : CounterSet := ⟨v, 0, 0, 0, 0⟩

/-- A counter delivered with value `v` in TRACKING: plausible by R75, implausible by R76. `step` is the max increment. -/
def CounterSet.trackingDelivered (modulus step v : Nat) (c : CounterSet) : CounterSet × Quality :=
  let d := increment modulus v c.base
  if d ≤ step then ({ c with base := v, debt := c.debt - d, lastInc := d, booked := d - c.debt }, .empty)
  else ({ c with base := v, sum := 0, debt := 0, booked := c.lastInc }, qImplausible.union qEstimated)

/-- A counter delivered with value `v` in ESTIMATING with run count `k`: reconciled by R79, or rebased by R80 where the
increment is implausible or the debt would overflow its field. -/
def CounterSet.estimatingDelivered (modulus step k v : Nat) (c : CounterSet) : CounterSet × Quality :=
  let d := increment modulus v c.base
  let owed := c.sum + c.debt
  if d ≤ step * (k + 1) ∧ owed - d < modulus then
    ({ base := v, sum := 0, debt := owed - d, lastInc := d / (k + 1), booked := d - owed }, qEstimated)
  else ({ c with base := v, sum := 0, debt := 0, booked := 0 }, qImplausible)

/-- A counter delivered with value `v`: its new account, with the count booked, and the quality it raises. -/
def CounterSet.delivered (modulus step : Nat) (st : SrcState) (k v : Nat) (c : CounterSet) : CounterSet × Quality :=
  match st with
  | .unset => (.rebased v, qIncomplete)
  | .tracking => c.trackingDelivered modulus step v
  | .estimating => c.estimatingDelivered modulus step k v
  | .lost => (.rebased v, qIncomplete)

/-- A counter that books its last increment as an estimate (R77, R78). -/
def CounterSet.estimate (sum : Nat) (c : CounterSet) : CounterSet := { c with sum := sum, booked := c.lastInc }

/-- A counter not delivered under hold limit `h` (R74, R77, R78, R81). -/
def CounterSet.missed (h : Nat) (st : SrcState) (k : Nat) (c : CounterSet) : CounterSet :=
  match st with
  | .unset => { c with booked := 0 }
  | .tracking => if 1 ≤ h then c.estimate c.lastInc else { c with booked := 0 }
  | .estimating => if k < h then c.estimate (c.sum + c.lastInc) else { c with booked := 0 }
  | .lost => { c with booked := 0 }

/-! ## The state a source is left in -/

/-- The shared part of a source that is delivered: TRACKING whatever the outcome (R74 to R82). -/
def SrcHead.delivered (n : BitVec 32) (q : Quality) : SrcHead := ⟨.tracking, 0, q, n⟩

/-- The shared part of a source that is not delivered (R74, R77, R78, R81). -/
def SrcHead.missed (h : Nat) (n : BitVec 32) (x : SrcHead) : SrcHead :=
  match x.state with
  | .unset => ⟨.unset, x.run, qIncomplete, n⟩
  | .tracking => if 1 ≤ h then ⟨.estimating, 1, qEstimated, n⟩ else ⟨.lost, 0, qIncomplete, n⟩
  | .estimating => if x.run < h then ⟨.estimating, x.run + 1, qEstimated, n⟩ else ⟨.lost, 0, qIncomplete, n⟩
  | .lost => ⟨.lost, x.run, qIncomplete, n⟩

/-! ## Points and lines (R71, R72, R82) -/

/-- Point `k`.`s`: its link (00_scope.md 4.4). -/
def pointLink (p : Fin 128) : Fin 8 := ⟨p.val / 16, by omega⟩

/-- Point `k`.`s`: its slot. -/
def pointSlot (p : Fin 128) : Nat := p.val % 16

/-- What the window of a computation delivers for a point: its reading, where the link was not quarantined at the start of
the computation, its slot holds a delivery, that delivery has the point's slot, and FAULT is clear (R43, R71). -/
def pointReading (quarantined : Tab 8 Bool) (w : SlotSet) (p : Fin 128) : Option Reading :=
  if quarantined.get (pointLink p) then none
  else
    match w.links.get (pointLink p) with
    | none => none
    | some d => (d.readings[pointSlot p]?).filter fun r => !r.fault

/-- A point reconciled for interval `n` (R71, R74 to R81). -/
def PointRecord.reconcile (h step : Nat) (n : BitVec 32) (reading : Option Reading) (r : PointRecord) : PointRecord :=
  match reading with
  | some x =>
    let c := r.counter.delivered Config.pointModulus step r.head.state r.head.run x.value.toNat
    ⟨.delivered n (c.2.withManual x.manual), c.1⟩
  | none => ⟨r.head.missed h n, r.counter.missed h r.head.state r.head.run⟩

/-- A line that is OFF and not delivered: it books 0 in silence (R72). -/
def LineRecord.silent (n : BitVec 32) (r : LineRecord) : LineRecord :=
  { r with
    head := { r.head with quality := .empty, interval := n }
    gobs := { r.gobs with booked := 0 }
    packed := { r.packed with booked := 0 } }

/-- A line reconciled for interval `n`: delivered by a tally, its gob mass becoming the tally's, each set by its own
judgement; OFF in silence; or not delivered (R72, R82). -/
def LineRecord.reconcile (h step : Nat) (n : BitVec 32) (st : LineState) (tally : Option Tally) (r : LineRecord) : LineRecord :=
  match tally with
  | some t =>
    let g := r.gobs.delivered Config.lineModulus step r.head.state r.head.run t.gobs.toNat
    let p := r.packed.delivered Config.lineModulus step r.head.state r.head.run t.packed.toNat
    ⟨.delivered n (g.2.union p.2), g.1, p.1, t.gobMass.toNat⟩
  | none =>
    if st = .off then r.silent n
    else
      { r with
        head := r.head.missed h n
        gobs := r.gobs.missed h r.head.state r.head.run
        packed := r.packed.missed h r.head.state r.head.run }

/-! ## The stage (R70, R86) -/

/-- The source table after reconciling window `w` on map `m`: every enabled point and line once, a disabled one as it
stood (R70). -/
def SourceTable.reconcile (m : PlantMap) (e : Engine) (w : SlotSet) (t : SourceTable) : SourceTable where
  points := t.points.mapIdx fun p r =>
    if (m.points.get p).enabled then
      r.reconcile m.global.holdLimit (m.points.get p).maxInc w.interval (pointReading e.quarantined w p)
    else r
  lines := t.lines.mapIdx fun l r =>
    if (m.lines.get l).enabled then
      r.reconcile m.global.holdLimit (m.lines.get l).maxGobs w.interval (e.lineStates.get l) (w.lines.get l)
    else r

/-- Whether some enabled source's shared part satisfies `q`, given the one before and the one after the stage. -/
def anySource (m : PlantMap) (before after : SourceTable) (q : SrcHead → SrcHead → Bool) : Bool :=
  (anyIdx 128 fun p => (m.points.get p).enabled && q (before.points.get p).head (after.points.get p).head)
    || (anyIdx 12 fun l => (m.lines.get l).enabled && q (before.lines.get l).head (after.lines.get l).head)

/-- The findings of the stage: a source raises ESTIMATED, enters LOST, raises IMPLAUSIBLE (R86). -/
def findingsOf (m : PlantMap) (before after : SourceTable) : Findings where
  estimate := anySource m before after fun _ a => a.quality.estimated
  pointLost := anySource m before after fun b a => b.state != .lost && a.state == .lost
  implausible := anySource m before after fun _ a => a.quality.implausible
  saturated := false

/-- The header of the working copy with the links and lines used and the findings of the stage (R86, R138). -/
def ResultHeader.reconciled (m : PlantMap) (e : Engine) (w : SlotSet) (f : Findings) (h : ResultHeader) : ResultHeader :=
  { h with
    linksUsed := Tab.ofFn fun l => (w.links.get l).isSome && !e.quarantined.get l
    linesUsed := Tab.ofFn fun l => (w.lines.get l).isSome && (m.lines.get l).enabled
    findings := f }

/-- Stage 2 on the window of set `i` (R70). -/
def State.reconcile (i : Fin 2) (s : State) : State :=
  let m := s.plant.active
  let w := s.ctrl.sets.get i
  let after := s.sources.reconcile m s.engine w
  let f := findingsOf m s.sources after
  { s with
    sources := after
    engine := { s.engine with phase := .reconciled }
    working := s.working.map fun t => { t with header := t.header.reconciled m s.engine w f } }

/-- A stage run on the COMPUTING set where the computation has finished the stage before it; otherwise the event is not due
and nothing happens (log entry 8). -/
def State.atStage (before : Phase) (run : Fin 2 → State → State) (s : State) : State :=
  match s.ctrl.setWith .computing with
  | some i => if s.engine.phase = before then run i s else s
  | none => s

/-- RECONCILIATION_STAGE (R70). -/
def execReconciliationStage (s : State) : Host.Outcome State Fault Refusal :=
  .next (s.atStage .started State.reconcile)

end Sys2Proof.Machine
end

