-- ==== Sys2Proof/Machine/Conversion.lean ====
section
/-! DEFINITION. Conversion of booked counts to kilojoules and mass, and their routing (R89 to R99). -/

namespace Sys2Proof.Machine

/-- The segment of a booked count `c` under max increment `m` (R92). -/
def segmentOf (c m : Nat) : Nat := min (c * 16 / (m + 1)) 15

/-- The gain of segment `s` under a curve field; no curve is a gain of 1.0 (R93). -/
def gainOf (curves : Tab 8 CurveEntry) (curve : Option (Fin 8)) (s : Nat) : Nat :=
  match curve with
  | none => 32768
  | some c => (curves.get c).gains.list.getD s 0

/-- The energy product of a conversion, in 1/65536 kJ, formed exactly before the division (R94). -/
def energyProduct (c g f : Nat) : Nat := c * g * f / 32768

/-- One conversion: the segment used, the kilojoules booked, the residue after it (R91, R92, R95). -/
structure Conversion where
  segment : Nat
  kj      : Nat
  residue : Nat
deriving DecidableEq, Repr

/-- A booked count `c` converted with residue `r` before it; a count of 0 forms nothing and keeps the residue (R91). -/
def convert (curves : Tab 8 CurveEntry) (e : PointEntry) (c r : Nat) : Conversion :=
  if c = 0 then ⟨0, 0, r⟩
  else
    let s := segmentOf c e.maxInc
    let t := r + energyProduct c (gainOf curves e.curve s) e.factor
    ⟨s, t / 65536, t % 65536⟩

/-- An enabled point's entry of the result table (R97), from its record and its residue before the stage. -/
def pointResult (m : PlantMap) (p : Fin 128) (r : PointRecord) (residue : Nat) : PointResult :=
  let e := m.points.get p
  let v := convert m.curves e r.counter.booked residue
  ⟨r.counter.booked, v.segment, v.kj, v.residue, e.carrier, e.target, r.head.quality⟩

/-- A point's kilojoules and quality added to the accumulators its target names (R96, R97). -/
def Accumulators.addPoint (a : Accumulators) (x : PointResult) : Accumulators :=
  let k := Kj.single x.carrier x.kj
  match x.target with
  | .furnace f =>
    { a with
      furnaceDirect := a.furnaceDirect.modify f fun v => v.add k, plant := a.plant.add k
      furnaceQuality := a.furnaceQuality.modify f fun q => q.union x.quality
      plantQuality := a.plantQuality.union x.quality }
  | .line l =>
    { a with
      lineDirect := a.lineDirect.modify l fun v => v.add k, plant := a.plant.add k
      lineQuality := a.lineQuality.modify l fun q => q.union x.quality
      plantQuality := a.plantQuality.union x.quality }
  | .pool p =>
    { a with
      poolMetered := a.poolMetered.modify p fun v => v.add k, plant := a.plant.add k
      poolQuality := a.poolQuality.modify p fun q => q.union x.quality
      plantQuality := a.plantQuality.union x.quality }
  | .monitor => { a with monitor := a.monitor.add k, monitorQuality := a.monitorQuality.union x.quality }

/-- A line's mass and quality added to the accumulators (R98, R99). -/
def Accumulators.addLine (a : Accumulators) (l : Fin 12) (r : LineRecord) : Accumulators :=
  let g := r.gobs.booked * r.gobMass
  let p := r.packed.booked * r.gobMass
  { a with
    gross := a.gross.modify l fun v => v + g, packed := a.packed.modify l fun v => v + p
    plantGross := a.plantGross + g, plantPacked := a.plantPacked + p
    lineQuality := a.lineQuality.modify l fun q => q.union r.head.quality
    plantQuality := a.plantQuality.union r.head.quality }

/-- The point entries of the stage: one for each enabled point (R97). -/
def pointResults (m : PlantMap) (t : SourceTable) (residues : Tab 128 Nat) : Tab 128 (Option PointResult) :=
  Tab.ofFn fun p =>
    if (m.points.get p).enabled then some (pointResult m p (t.points.get p) (residues.get p)) else none

/-- The accumulators after every enabled point and line has been converted (R91, R98). -/
def Accumulators.convertAll (m : PlantMap) (t : SourceTable) (points : Tab 128 (Option PointResult)) (a : Accumulators) :
    Accumulators :=
  let withPoints := (indices 128).foldl (fun a p => match points.get p with | some x => a.addPoint x | none => a) a
  (indices 12).foldl (fun a l => if (m.lines.get l).enabled then a.addLine l (t.lines.get l) else a) withPoints

/-- A line entry as the conversion stage writes it; the later stages add to it (R99). DESIGN CHOICE (log entry 40): until then its
energies are 0 and its specific energies no figure. -/
def lineResult (e : LineEntry) (st : LineState) (r : LineRecord) : LineResult where
  state := st
  gobs := r.gobs.booked
  packed := r.packed.booked
  gobMass := r.gobMass
  grossMass := r.gobs.booked * r.gobMass
  packedMass := r.packed.booked * r.gobMass
  furnaceShare := .zero
  direct := .zero
  poolShare := .zero
  total := .zero
  seGross := Config.seNone
  sePack := Config.seNone
  quality := r.head.quality
  minMass := e.minMass

/-- The line entries of the stage: one for each enabled line (R99). -/
def lineResults (m : PlantMap) (e : Engine) (t : SourceTable) : Tab 12 (Option LineResult) :=
  Tab.ofFn fun l =>
    if (m.lines.get l).enabled then some (lineResult (m.lines.get l) (e.lineStates.get l) (t.lines.get l)) else none

/-- Stage 3 (R91 to R99): the counts and qualities are those the records hold since stage 2 (log entry 19). -/
def State.convertStage (_i : Fin 2) (s : State) : State :=
  let m := s.plant.active
  let points := pointResults m s.sources s.residues
  { s with
    residues := s.residues.mapIdx fun p r => match points.get p with | some x => x.residue | none => r
    engine := { s.engine with phase := .converted, acc := s.engine.acc.convertAll m s.sources points }
    working := s.working.map fun t => { t with points := points, lines := lineResults m s.engine s.sources } }

/-- CONVERSION_STAGE (R91). -/
def execConversionStage (s : State) : Host.Outcome State Fault Refusal :=
  .next (s.atStage .reconciled State.convertStage)

end Sys2Proof.Machine
end

