-- ==== Sys2Proof/Machine/Queues.lean ====
section
/-! DEFINITION. The residence queue stage (R104 to R108). -/

namespace Sys2Proof.Machine

/-- The record pushed for an interval: each carrier limited to 40 bits, SATURATED where one was above (R105). -/
def newRecord (n : BitVec 32) (direct : Kj) (q : Quality) : QueueRecord :=
  ⟨n, direct.limit Config.recordMax, q.withSaturated (direct.above Config.recordMax)⟩

/-- How many records leave the head of a queue so that no more than the lag remain (R106). -/
def releaseCount (lag : Nat) (q : List QueueRecord) : Nat := q.length - lag

/-- What the stage does with one furnace: its queue afterwards, the records released, hold and heat-up energy, and whether
the record pushed saturated. -/
structure QueueEffect where
  queue     : List QueueRecord
  released  : List QueueRecord
  hold      : Kj
  heatup    : Kj
  saturated : Bool
deriving DecidableEq, Repr

/-- The stage at one furnace in state `st` (R105, R106, R107). -/
def queueEffect (n : BitVec 32) (st : FurnaceState) (direct : Kj) (q : Quality) (f : Furnace) : QueueEffect :=
  match st with
  | .melt =>
    let pushed := f.queue ++ [newRecord n direct q]
    let k := releaseCount f.lag pushed
    ⟨pushed.drop k, pushed.take k, .zero, .zero, direct.above Config.recordMax⟩
  | .hold => ⟨f.queue, [], direct, .zero, false⟩
  | .heatup => ⟨f.queue, [], .zero, direct, false⟩

/-- The furnace entry as the stage writes it; the later stages add to it (R104). DESIGN CHOICE (log entry 40): until then its pull,
attributed and no-pull energies are 0, its specific energies no figure and its quality empty. -/
def furnaceResult (e : FurnaceEntry) (st : FurnaceState) (lag : Nat) (direct : Kj) (x : QueueEffect) : FurnaceResult where
  state := st
  lag := lag
  occupancy := x.queue.length
  pull := 0
  released := queueContent x.released
  attributed := .zero
  noPull := .zero
  hold := x.hold
  heatup := x.heatup
  metered := direct
  seMelt := Config.seNone
  seFired := Config.seNone
  quality := .empty
  minMass := e.minMass

/-- The effect at furnace `f` of the computation in flight (R104); none for a furnace disabled in the map (R108). -/
def State.queueEffectAt (i : Fin 2) (s : State) (f : Fin 4) : Option QueueEffect :=
  if (s.plant.active.furnaces.get f).enabled then
    some (queueEffect (s.ctrl.sets.get i).interval (s.engine.furnaceStates.get f) (s.engine.acc.furnaceDirect.get f)
      (s.engine.acc.furnaceQuality.get f) (s.furnaces.get f))
  else none

/-- Stage 4 (R104): each enabled furnace is taken once; a saturated record marks the interval (R105). -/
def State.queueStage (i : Fin 2) (s : State) : State :=
  let x : Tab 4 (Option QueueEffect) := Tab.ofFn (s.queueEffectAt i)
  let sat := anyIdx 4 fun f => match x.get f with | some y => y.saturated | none => false
  { s with
    furnaces := s.furnaces.mapIdx fun f r => match x.get f with | some y => { r with queue := y.queue } | none => r
    engine := { s.engine with
      phase := .queued, saturated := sat
      released := Tab.ofFn fun f =>
        match x.get f with
        | some y => ⟨queueQuality y.released, y.released.length⟩
        | none => ⟨.empty, 0⟩ }
    working := s.working.map fun t => { t with
      furnaces := Tab.ofFn fun f => (x.get f).map
        (furnaceResult (s.plant.active.furnaces.get f) (s.engine.furnaceStates.get f) (s.furnaces.get f).lag
          (s.engine.acc.furnaceDirect.get f)) } }

/-- RESIDENCE_QUEUE_STAGE (R104). -/
def execResidenceQueueStage (s : State) : Host.Outcome State Fault Refusal :=
  .next (s.atStage .converted State.queueStage)

end Sys2Proof.Machine
end

