-- ==== Sys2Proof/Machine/Split.lean ====
section
/-! DEFINITION. The largest-remainder split, furnace pull, the furnace split and the pool split (R116 to R122). -/

namespace Sys2Proof.Machine

/-! ## The largest-remainder split (R117)

A weight of 0 marks a line that does not take part. -/

/-- The sum of the weights. -/
def weightSum (w : Tab 12 Nat) : Nat := sumIdx 12 w.get

/-- A line's floor share of `e` (R117 step 1). -/
def floorShare (e : Nat) (w : Tab 12 Nat) (l : Fin 12) : Nat := e * w.get l / weightSum w

/-- A line's remainder (R117 step 1). -/
def remainder (e : Nat) (w : Tab 12 Nat) (l : Fin 12) : Nat := e * w.get l % weightSum w

/-- The leftover: `e` less the floor shares (R117 step 2). -/
def leftover (e : Nat) (w : Tab 12 Nat) : Nat := e - sumIdx 12 (floorShare e w)

/-- Whether line `j` stands before line `l` in the ranking: a larger remainder, or an equal one and a lower number
(R117 step 3). -/
def ranksBefore (e : Nat) (w : Tab 12 Nat) (j l : Fin 12) : Bool :=
  decide (remainder e w l < remainder e w j) || (remainder e w l == remainder e w j && decide (j < l))

/-- The number of taking-part lines that stand before line `l` in the ranking. -/
def rankOf (e : Nat) (w : Tab 12 Nat) (l : Fin 12) : Nat :=
  ((indices 12).filter fun j => w.get j != 0 && ranksBefore e w j l).length

/-- A line's share of `e` under weights `w`: its floor share, and one kilojoule more if it is among the first of the
ranking; 0 for a line that does not take part (R117 step 4). -/
def share (e : Nat) (w : Tab 12 Nat) (l : Fin 12) : Nat :=
  if w.get l = 0 then 0 else floorShare e w l + (if rankOf e w l < leftover e w then 1 else 0)

/-- A line's shares of each carrier of `k`, each carrier split by itself (R117). -/
def shares (k : Kj) (w : Tab 12 Nat) (l : Fin 12) : Kj := Kj.ofFn fun c => share (k.get c) w l

/-- The sum of the shares over the lines. -/
def sharedSum (k : Kj) (w : Tab 12 Nat) : Kj := Kj.sum ((indices 12).map (shares k w))

/-! ## The furnace split (R116, R119, R120) -/

/-- The weights of furnace `f`'s split: the gross mass of each enabled line assigned to it (R119). -/
def pullWeights (m : PlantMap) (gross : Tab 12 Nat) (f : Fin 4) : Tab 12 Nat :=
  Tab.ofFn fun l => if (m.lines.get l).enabled && (m.lines.get l).furnace == f then gross.get l else 0

/-- A furnace entry after the split: its pull, and its released energy attributed to lines, or sent to no-pull where the
pull is 0 (R116, R119, R120).
DEDUCED (log entry 41): a pull above 0 and below the furnace's minimum is split to the lines, as R104, R119 and R120 say; R136
says of a pull below its minimum that the energy stands in no-pull by R120, and R120 sends it there at a pull of 0. -/
def FurnaceResult.split (w : Tab 12 Nat) (r : FurnaceResult) : FurnaceResult :=
  { r with
    pull := weightSum w
    attributed := Kj.onlyIf (weightSum w != 0) (sharedSum r.released w)
    noPull := Kj.onlyIf (weightSum w == 0) r.released }

/-- A line entry after the furnace split: its furnace share, and its furnace's released quality where the line takes part
and at least one record left the queue (R119). -/
def LineResult.takeFurnaceShare (released : Kj) (out : Released) (w : Tab 12 Nat) (l : Fin 12) (r : LineResult) : LineResult :=
  { r with
    furnaceShare := shares released w l
    quality := r.quality.union (Quality.onlyIf (w.get l != 0 && out.records != 0) out.quality) }

/-- Stage 5 (R116 to R120). -/
def State.furnaceSplitStage (_i : Fin 2) (s : State) : State :=
  let m := s.plant.active
  let w (f : Fin 4) : Tab 12 Nat := pullWeights m s.engine.acc.gross f
  { s with
    engine := { s.engine with phase := .furnaceSplit }
    working := s.working.map fun t => { t with
      furnaces := t.furnaces.mapIdx fun f r => r.map (FurnaceResult.split (w f))
      lines := t.lines.mapIdx fun l r =>
        let f := (m.lines.get l).furnace
        match t.furnaces.get f with
        | some x => r.map (LineResult.takeFurnaceShare x.released (s.engine.released.get f) (w f) l)
        | none => r } }

/-- FURNACE_SPLIT (R119). -/
def execFurnaceSplit (s : State) : Host.Outcome State Fault Refusal :=
  .next (s.atStage .queued State.furnaceSplitStage)

/-! ## The pool split (R121, R122) -/

/-- The weights of pool `p`'s split under its basis (R121). -/
def poolWeights (m : PlantMap) (acc : Accumulators) (lineStates : Tab 12 LineState) (p : Fin 4) : Tab 12 Nat :=
  Tab.ofFn fun l =>
    if (m.lines.get l).enabled then
      match (m.pools.get p).basis with
      | .gross => acc.gross.get l
      | .pack => acc.packed.get l
      | .fixed => if lineStates.get l = .off then 0 else (m.lines.get l).weights.get p
    else 0

/-- A pool's entry (R122): its metered energy shared, or unattributed where no line takes part. -/
def poolResult (e : PoolEntry) (metered : Kj) (q : Quality) (w : Tab 12 Nat) : PoolResult where
  basis := e.basis
  metered := metered
  shared := Kj.onlyIf (weightSum w != 0) (sharedSum metered w)
  unattributed := Kj.onlyIf (weightSum w == 0) metered
  quality := q

/-- A line entry after one pool's split: its pool share added, and the pool's quality where the share is above 0 in at least
one carrier (R122). -/
def LineResult.takePoolShare (k : Kj) (q : Quality) (r : LineResult) : LineResult :=
  { r with
    poolShare := r.poolShare.add k
    quality := r.quality.union (Quality.onlyIf (k.total != 0) q) }

/-- Stage 6 (R121, R122). -/
def State.poolSplitStage (_i : Fin 2) (s : State) : State :=
  let m := s.plant.active
  let a := s.engine.acc
  let w (p : Fin 4) : Tab 12 Nat := poolWeights m a s.engine.lineStates p
  let pools : Tab 4 (Option PoolResult) := Tab.ofFn fun p =>
    if (m.pools.get p).enabled then
      some (poolResult (m.pools.get p) (a.poolMetered.get p) (a.poolQuality.get p) (w p))
    else none
  { s with
    engine := { s.engine with phase := .poolSplit }
    working := s.working.map fun t => { t with
      pools := pools
      lines := t.lines.mapIdx fun l r => (indices 4).foldl (fun r p =>
        if (m.pools.get p).enabled then
          r.map (LineResult.takePoolShare (shares (a.poolMetered.get p) (w p) l) (a.poolQuality.get p))
        else r) r
      plant := { t.plant with
        unattributed := Kj.sum ((indices 4).map fun p =>
          match pools.get p with
          | some x => x.unattributed
          | none => .zero) } } }

/-- POOL_SPLIT (R122). -/
def execPoolSplit (s : State) : Host.Outcome State Fault Refusal :=
  .next (s.atStage .furnaceSplit State.poolSplitStage)

end Sys2Proof.Machine
end

