-- ==== Sys2Proof/Machine/Results.lean ====
section
/-! DEFINITION. Specific energy, the totals stage, and the completion of a computation (R123 to R143, R147, R153). -/

namespace Sys2Proof.Machine

/-! ## Specific energy (R132 to R134) -/

/-- The quotient of R132: kJ on dg in units of 0.1 MJ/t, rounded to the nearest, a half up. -/
def seQuotient (e m : Nat) : Nat := (e * 100000 + m / 2) / m

/-- Whether a mass in dg reaches a minimum in kg (R133). -/
def reachesMinimum (m minKg : Nat) : Bool := decide (minKg * 10000 ≤ m)

/-- The specific energy of `e` kJ on `m` dg under a minimum in kg: no figure below the minimum (R133), else the quotient,
clamped (R132, R134). -/
def seOf (e m minKg : Nat) : Nat :=
  if reachesMinimum m minKg then min (seQuotient e m) Config.seClamp else Config.seNone

/-- Whether a figure is clamped (R134). -/
def seClamped (e m minKg : Nat) : Bool := reachesMinimum m minKg && decide (Config.seClamp < seQuotient e m)

/-! ## The totals stage (R123 to R125, R135 to R137) -/

/-- A line's total per carrier (R123). -/
def LineResult.totalOf (direct : Kj) (r : LineResult) : Kj := (r.furnaceShare.add direct).add r.poolShare

/-- Whether one of a line's two figures is clamped. -/
def LineResult.clamped (direct : Kj) (r : LineResult) : Bool :=
  seClamped (r.totalOf direct).total r.grossMass r.minMass || seClamped (r.totalOf direct).total r.packedMass r.minMass

/-- A line entry completed: direct energy, totals, quality, SE_gross and SE_pack (R123, R124, R134, R135). -/
def LineResult.complete (direct : Kj) (own : Quality) (r : LineResult) : LineResult :=
  let t := r.totalOf direct
  { r with
    direct := direct, total := t
    seGross := seOf t.total r.grossMass r.minMass, sePack := seOf t.total r.packedMass r.minMass
    quality := (r.quality.union own).withSaturated (r.clamped direct) }

/-- Whether one of a furnace's two figures is clamped. -/
def FurnaceResult.clamped (r : FurnaceResult) : Bool :=
  seClamped r.attributed.total r.pull r.minMass || seClamped r.metered.total r.pull r.minMass

/-- A furnace entry completed: quality, SE_melt and SE_fired (R125, R134, R136). Where its released energy stands, of which R136
speaks too, is `FurnaceResult.split`'s (R119, R120; log entry 41). -/
def FurnaceResult.complete (direct released : Quality) (r : FurnaceResult) : FurnaceResult :=
  { r with
    seMelt := seOf r.attributed.total r.pull r.minMass, seFired := seOf r.metered.total r.pull r.minMass
    quality := (direct.union released).withSaturated r.clamped }

/-- The plant entry completed: SE_plant on the plant packed mass (R125, R134, R137). -/
def PlantResult.complete (minKg : Nat) (a : Accumulators) (r : PlantResult) : PlantResult :=
  { r with
    metered := a.plant, monitor := a.monitor, grossMass := a.plantGross, packedMass := a.plantPacked
    sePlant := seOf a.plant.total a.plantPacked minKg
    quality := a.plantQuality.withSaturated (seClamped a.plant.total a.plantPacked minKg)
    monitorQuality := a.monitorQuality
    minMass := minKg }

/-- Whether some figure of the interval is clamped (R134), judged on the entries before the stage completes them. -/
def ResultTable.clampedAny (minKg : Nat) (a : Accumulators) (t : ResultTable) : Bool :=
  (anyIdx 12 fun l => match t.lines.get l with | some r => r.clamped (a.lineDirect.get l) | none => false)
    || (anyIdx 4 fun f => match t.furnaces.get f with | some r => r.clamped | none => false)
    || seClamped a.plant.total a.plantPacked minKg

/-- The working copy after the totals stage; a clamp is a SATURATED finding (R134, R139). -/
def ResultTable.totals (minKg : Nat) (e : Engine) (t : ResultTable) : ResultTable :=
  let a := e.acc
  { t with
    header := { t.header with
      findings := { t.header.findings with saturated := t.header.findings.saturated || t.clampedAny minKg a } }
    lines := t.lines.mapIdx fun l r => r.map (LineResult.complete (a.lineDirect.get l) (a.lineQuality.get l))
    furnaces := t.furnaces.mapIdx fun f r =>
      r.map (FurnaceResult.complete (a.furnaceQuality.get f) (e.released.get f).quality)
    plant := t.plant.complete minKg a }

/-- Stage 7 (R123 to R125, R135 to R137). -/
def State.totalsStage (_i : Fin 2) (s : State) : State :=
  { s with
    engine := { s.engine with phase := .totalled }
    working := s.working.map (ResultTable.totals s.plant.active.global.plantMin s.engine) }

/-- TOTALS_STAGE (R123). -/
def execTotalsStage (s : State) : Host.Outcome State Fault Refusal :=
  .next (s.atStage .poolSplit State.totalsStage)

/-! ## Completion (R128, R140, R143) -/

/-- The working copy as published: its header finished with the ACTIVE bank's period number, the period-end flag and cause
as read at completion, and SATURATED where adding the interval saturates the bank (R140, R143, R148). -/
def ResultTable.finish (b : Bank) (mark : Option CloseCause) (queueSaturated : Bool) (t : ResultTable) : ResultTable :=
  { t with header := { t.header with
      period := b.period, mark := mark
      findings := { t.header.findings with
        saturated := t.header.findings.saturated || b.addSaturates t queueSaturated } } }

/-- The notices of a completion (R143). -/
def State.completionNotices (f : Findings) (s : State) : State :=
  ((((s.notify .intervalDone).notifyIf f.estimate .estimate).notifyIf f.pointLost .pointLost).notifyIf
    f.implausible .implausible).notifyIf f.saturated .saturated

/-- Steps 1 to 3 of R128 with the working copy `t` and the period-end mark of its set: published, added to the ACTIVE bank,
and the completion notices set. -/
def State.publish (mark : Option CloseCause) (t : ResultTable) (s : State) : State :=
  let b := s.activeBank
  let done := t.finish b mark s.engine.saturated
  let s1 : State := { s with published := some done, working := none }
  (s1.putBank s.activeIdx (b.addInterval t s.engine.saturated)).completionNotices done.header.findings

/-- The swap that follows a completion whose period-end flag is set (R128 step 4). -/
def State.swapIfMarked (mark : Option CloseCause) (s : State) : State :=
  match mark with
  | some c => s.swap c
  | none => s

/-- What follows the completion and any swap (R56, R66, R128): the set is FREE and the engine idle; a WAITING set's
computation starts; in STOPPING with no window left (the stop-marked interval is the last, log entry 17) the accounting state
returns to READY. -/
def State.afterCompletion (i : Fin 2) (s : State) : State :=
  let s1 := { s.putSet i .free with engine := .idle }
  match s1.ctrl.setWith .waiting with
  | some j => s1.startComputation j
  | none =>
    if s1.ctrl.acc = .stopping ∧ (s1.ctrl.setWith .opened).isNone then s1.returnToReady else s1

/-- The swap, where the set is marked, and what follows it (R128 step 4, R56, R66). -/
def State.finishCompletion (i : Fin 2) (s : State) : State :=
  (s.swapIfMarked (s.ctrl.sets.get i).mark).afterCompletion i

/-- The completion of the computation of the window in set `i` (R128). -/
def State.complete (i : Fin 2) (s : State) : State :=
  match s.working with
  | some t => (s.publish (s.ctrl.sets.get i).mark t).finishCompletion i
  | none => s

/-- The first part of a completion that a swap follows: the interval published, added and its notices set, the swap still to
come (R128 steps 1 to 3, R155; log entry 32). A completion without a swap has no such moment. -/
def State.bankInterval (i : Fin 2) (s : State) : State :=
  match s.working, (s.ctrl.sets.get i).mark with
  | some t, some c =>
    let s1 := s.publish (some c) t
    { s1 with engine := { s1.engine with phase := .banked } }
  | _, _ => s

/-- COMPLETION (R128): the whole completion, or its rest where a READ_BANK_RECORD has seen the bank before the swap (R155). -/
def execCompletion (s : State) : Host.Outcome State Fault Refusal :=
  .next (if s.engine.phase = .banked then s.atStage .banked State.finishCompletion else s.atStage .totalled State.complete)

end Sys2Proof.Machine
end

