-- ==== Sys2Proof/Machine/Copies.lean ====
section
/-! DEFINITION. The copies the read commands make, byte by byte, and the checks of their selectors (R10, R36, R88, R112, R141,
R142, R155 to R158, R171, R174, R183, R186, 13.6). -/

namespace Sys2Proof.Machine

/-- A read's outcome at its owning block: the bytes of the copy, or a refusal (R166). -/
abbrev Copy := Except Answer (List Byte)

/-- REFUSED_RANGE with a refusal detail. -/
def rangeFault (table value number : Nat) : Copy := .error (.range ⟨table, value, number⟩)

/-- REFUSED_STATE. -/
def stateFault : Copy := .error (.result .refusedState)

/-- The energy a view selects: the sum over carriers, or one carrier (R142, R156). -/
def viewEnergy (v : View) (k : Kj) : Nat :=
  match v with
  | .totals => k.total
  | .carrier c => k.get c

/-- The bytes of several energies in a view, 7 bytes each (13.6). -/
def energyBytes (v : View) (ks : List Kj) : List Byte := ks.flatMap fun k => toBE 7 (viewEnergy v k)

/-! ## READ ID, READ NOTICES (R171, R174) -/

/-- The identity record (R171, 13.6): vendor, part, revision, fixed counts, port. -/
def idCopy (p : Port) : List Byte :=
  toBE 2 0x4B57 ++ toBE 2 0x0412 ++ [1, 4, 12, 4, 8, 16, 64, byteOf (portCode p)]

/-- Notices, mask and refusal detail of a port (R174, 13.6). -/
def noticesCopy (u : PortUnit) : List Byte :=
  toBE 2 u.notices.toNat ++ toBE 2 u.mask.toNat ++ [byteOf u.detail.table, byteOf u.detail.value, byteOf u.detail.number]

/-! ## READ LINK STATUS (R36) -/

/-- The point count of the frame in progress and the slot index reached; both 0 outside TAG and POINTS (R36). DESIGN CHOICE
(log entry 38): the slot index in TAG, before word 1 sets it (R25), is 0. -/
def frameProgress : Decoder → Nat × Nat
  | .hunt => (0, 0)
  | .tag h => (h.pointCount, 0)
  | .points h _ got _ => (h.pointCount, got.length)
  | .discard => (0, 0)

/-- The link status copy (R36, 13.6). DESIGN CHOICE (log entry 44): quarantined is 1 for a quarantined link, else 0. -/
def linkBytes (mode : LinkMode) (k : Link) : List Byte :=
  let p := frameProgress k.rx.decoder
  [byteOf (linkModeCode mode), byteOf (decoderCode k.rx.decoder), byteOf p.1, byteOf p.2,
   byteOf (k.rx.lastSeq.toNat + 128 * k.rx.armed.toNat)]
    ++ toBE 2 k.rx.taken.toNat ++ toBE 2 k.rx.discarded.toNat
    ++ [k.counts.line, k.counts.form, k.counts.sequence, k.counts.timing, maskByte k.flags, flagByte k.quarantined]

/-- READ LINK STATUS at the link receivers (R36). -/
def linkStatusCopy (s : State) (link : Nat) : Copy :=
  match toIdx 8 link with
  | some l => .ok (linkBytes (s.plant.active.links.get l).mode (s.links.get l))
  | none => rangeFault tableLink link 0

/-! ## READ STAGED ENTRY, READ ACTIVE ENTRY (R10) -/

/-- The copy of one entry: table, index, 32-byte image (R10, 13.5). -/
def entryCopy (m : PlantMap) (table index : Nat) : Copy :=
  match selectorFault table index with
  | some d => .error (.range d)
  | none => .ok (byteOf table :: byteOf index :: padTo 32 ((entryImage m table index).getD []))

/-! ## READ POINT STATE (R88) -/

/-- The five fields of a counter, each in `w` bytes (13.6). -/
def counterBytes (w : Nat) (c : CounterSet) : List Byte :=
  toBE w c.base ++ toBE w c.sum ++ toBE w c.debt ++ toBE w c.lastInc ++ toBE w c.booked

/-- The copy of a point record with its residue (R88, 13.6). -/
def pointBytes (r : PointRecord) (residue : Nat) : List Byte :=
  [byteOf (srcStateCode r.head.state), byteOf r.head.run] ++ counterBytes 3 r.counter ++ [r.head.quality.byte]
    ++ toBE 4 r.head.interval.toNat ++ toBE 2 residue

/-- The copy of a line record (R88, 13.6). -/
def lineBytes (r : LineRecord) : List Byte :=
  [byteOf (srcStateCode r.head.state), byteOf r.head.run, r.head.quality.byte] ++ toBE 4 r.head.interval.toNat
    ++ counterBytes 4 r.gobs ++ counterBytes 4 r.packed ++ toBE 2 r.gobMass

/-- READ POINT STATE at the source table (R88). -/
def pointStateCopy (s : State) (kind index : Nat) : Copy :=
  match kind with
  | 0 =>
    match toIdx 128 index with
    | some p => .ok (pointBytes (s.sources.points.get p) (s.residues.get p))
    | none => rangeFault tablePoint index 0
  | 1 =>
    match toIdx 12 index with
    | some l => .ok (lineBytes (s.sources.lines.get l))
    | none => rangeFault tableLine index 0
  | _ => rangeFault tableGlobal kind 1

/-! ## READ QUEUE (R112) -/

/-- The queue view (R112, 13.6). DESIGN CHOICE: the byte of the pending lag is 0 while none is held (log entry 34), and pending held
is 1 while one is held, else 0 (log entry 44). -/
def queueBytes (enabled : Bool) (f : Furnace) : List Byte :=
  let c := queueContent f.queue
  [byteOf (furnaceStateCode f.state), flagByte enabled, byteOf f.lag, flagByte f.pendingLag.isSome,
   byteOf (f.pendingLag.getD 0), byteOf f.queue.length]
    ++ toBE 4 ((f.queue.head?.map fun r => r.interval.toNat).getD 0)
    ++ toBE 4 ((f.queue.getLast?.map fun r => r.interval.toNat).getD 0)
    ++ toBE 6 c.fuel ++ toBE 6 c.elec ++ toBE 6 c.oxy ++ toBE 6 c.aux ++ [(queueQuality f.queue).byte]

/-- A record view (R112, 13.6). -/
def recordBytes (position : Nat) (r : QueueRecord) : List Byte :=
  byteOf position :: toBE 4 r.interval.toNat ++ toBE 5 r.energy.fuel ++ toBE 5 r.energy.elec ++ toBE 5 r.energy.oxy
    ++ toBE 5 r.energy.aux ++ [r.quality.byte]

/-- READ QUEUE at the residence queues (R112). DESIGN CHOICE (log entry 35): the furnace is judged before the selector. -/
def queueCopy (s : State) (furnace selector : Nat) : Copy :=
  match toIdx 4 furnace with
  | none => rangeFault tableFurnace furnace 1
  | some f =>
    if selector = 255 then .ok (queueBytes (s.plant.active.furnaces.get f).enabled (s.furnaces.get f))
    else if 63 < selector then rangeFault tableFurnace furnace 2
    else
      match (s.furnaces.get f).queue[selector]? with
      | some r => .ok (recordBytes selector r)
      | none => rangeFault tableFurnace furnace 2

/-! ## READ RESULT (R141, R142) -/

/-- The header copy (13.6): interval, period, EMPTY and period-end bits with the cause, links used, lines used, findings.
DEDUCED (log entry 43): the links-used byte holds link `l` in bit `l`. -/
def resultHeaderBytes : Option ResultTable → List Byte
  | none => toBE 4 0 ++ toBE 4 0 ++ [128, 0] ++ toBE 2 0 ++ [0]
  | some t =>
    let h := t.header
    toBE 4 h.interval.toNat ++ toBE 4 h.period.toNat
      ++ [byteOf (64 * h.mark.isSome.toNat + causeCode h.mark), byteOf (sumIdx 8 fun l => (h.linksUsed.get l).toNat * 2 ^ l.val)]
      ++ toBE 2 (sumIdx 12 fun l => (h.linesUsed.get l).toNat * 2 ^ l.val) ++ [h.findings.byte]

/-- An absent entry: the interval number, present 0 and every other field 0, `len` bytes in all (R141). -/
def absentBytes (n : BitVec 32) (len : Nat) : List Byte := padTo len (toBE 4 n.toNat)

/-- A point entry (13.6). -/
def pointResultBytes (x : PointResult) : List Byte :=
  toBE 3 x.count ++ [byteOf x.segment] ++ toBE 6 x.kj ++ toBE 2 x.residue
    ++ [byteOf (carrierCode x.carrier), byteOf (targetKindCode x.target), byteOf (targetIndex x.target), x.quality.byte]

/-- A line entry in a view; a carrier view forms its SE at the read (R142). -/
def lineResultBytes (v : View) (x : LineResult) : List Byte :=
  [byteOf (lineStateCode x.state)] ++ toBE 3 x.gobs ++ toBE 3 x.packed ++ toBE 2 x.gobMass ++ toBE 5 x.grossMass
    ++ toBE 5 x.packedMass ++ energyBytes v [x.furnaceShare, x.direct, x.poolShare, x.total]
    ++ (match v with
        | .totals => toBE 3 x.seGross ++ toBE 3 x.sePack
        | .carrier c => toBE 3 (seOf (x.total.get c) x.grossMass x.minMass) ++ toBE 3 (seOf (x.total.get c) x.packedMass x.minMass))
    ++ [x.quality.byte]

/-- A furnace entry in a view (R142). -/
def furnaceResultBytes (v : View) (x : FurnaceResult) : List Byte :=
  [byteOf (furnaceStateCode x.state), byteOf x.lag, byteOf x.occupancy] ++ toBE 6 x.pull
    ++ energyBytes v [x.released, x.attributed, x.noPull, x.hold, x.heatup, x.metered]
    ++ (match v with
        | .totals => toBE 3 x.seMelt ++ toBE 3 x.seFired
        | .carrier c => toBE 3 (seOf (x.attributed.get c) x.pull x.minMass) ++ toBE 3 (seOf (x.metered.get c) x.pull x.minMass))
    ++ [x.quality.byte]

/-- A pool entry in a view. -/
def poolResultBytes (v : View) (x : PoolResult) : List Byte :=
  [byteOf (basisCode x.basis)] ++ energyBytes v [x.metered, x.shared, x.unattributed] ++ [x.quality.byte]

/-- The plant entry in a view (R142). -/
def plantResultBytes (v : View) (x : PlantResult) : List Byte :=
  energyBytes v [x.metered, x.monitor, x.unattributed] ++ toBE 6 x.grossMass ++ toBE 6 x.packedMass
    ++ (match v with
        | .totals => toBE 3 x.sePlant
        | .carrier c => toBE 3 (seOf (x.metered.get c) x.packedMass x.minMass))
    ++ [x.quality.byte, x.monitorQuality.byte]

/-- An entry that may be absent: interval number, present, and the entry's bytes; `len` is the copy's length (R141). DESIGN CHOICE
(log entry 44): present is 1 for an entry that is there; R141 states only the 0 of an absent one. -/
def entryResult {α : Type} (n : BitVec 32) (len : Nat) (bytes : α → List Byte) : Option α → List Byte
  | some x => toBE 4 n.toNat ++ [1] ++ bytes x
  | none => absentBytes n len

/-- The six kinds of READ RESULT (13.3). -/
inductive ResultKind where
  | header | point | line | furnace | pool | plant
deriving DecidableEq, Repr

/-- The kind a code names (13.3). -/
def resultKindOfCode : Nat → Option ResultKind
  | 0 => some .header
  | 1 => some .point
  | 2 => some .line
  | 3 => some .furnace
  | 4 => some .pool
  | 5 => some .plant
  | _ => none

/-- Entries of a kind, and its map table (R141). -/
def resultKindShape : ResultKind → Nat × Nat
  | .header => (1, tableGlobal)
  | .point => (128, tablePoint)
  | .line => (12, tableLine)
  | .furnace => (4, tableFurnace)
  | .pool => (4, tablePool)
  | .plant => (1, tableGlobal)

/-- Whether READ RESULT allows a view for a kind: HEADER and POINT the TOTALS view alone, no kind the half bit
(R141, R186). -/
def resultViewAllowed (k : ResultKind) (v : View) (half : Bool) : Bool :=
  !half &&
    match k with
    | .header => v == .totals
    | .point => v == .totals
    | .line => true
    | .furnace => true
    | .pool => true
    | .plant => true

/-- The copy of one part of a published table that holds an interval (R141). -/
def resultPart (t : ResultTable) (k : ResultKind) (index : Nat) (v : View) : List Byte :=
  let n := t.header.interval
  match k with
  | .header => resultHeaderBytes (some t)
  | .point => entryResult n 21 pointResultBytes ((toIdx 128 index).bind t.points.get)
  | .line => entryResult n 59 (lineResultBytes v) ((toIdx 12 index).bind t.lines.get)
  | .furnace => entryResult n 63 (furnaceResultBytes v) ((toIdx 4 index).bind t.furnaces.get)
  | .pool => entryResult n 28 (poolResultBytes v) ((toIdx 4 index).bind t.pools.get)
  | .plant => toBE 4 n.toNat ++ plantResultBytes v t.plant

/-- READ RESULT at the apportionment engine (R141). DESIGN CHOICE: the index is judged before the view (log entry 37), and both
before EMPTY (log entry 15). -/
def resultCopy (s : State) (kind index : Nat) (view : Byte) : Copy :=
  match resultKindOfCode kind with
  | none => rangeFault tableGlobal kind 1
  | some k =>
    if (resultKindShape k).1 ≤ index then rangeFault (resultKindShape k).2 index 2
    else
      match viewOfByte view with
      | none => rangeFault (resultKindShape k).2 index 3
      | some (v, half) =>
        if !resultViewAllowed k v half then rangeFault (resultKindShape k).2 index 3
        else
          match s.published with
          | some t => .ok (resultPart t k index v)
          | none => if k = .header then .ok (resultHeaderBytes none) else stateFault

/-! ## READ BANK RECORD (R155 to R158, R186) -/

/-- The common fields of every bank copy: bank number, state, period, last interval, interval count (R155, 13.6). -/
def bankPrefix (i : Fin 2) (b : Bank) : List Byte :=
  [byteOf i.val, byteOf (bankStateCode b.state)] ++ toBE 4 b.period.toNat ++ toBE 4 b.last.toNat ++ toBE 4 b.count.toNat

/-- In-process now of a furnace record: the queue content for the ACTIVE bank, the stored value for the FROZEN bank (R149). -/
def inProcessNow (b : Bank) (queue : List QueueRecord) (r : FurnaceRecord) : Kj :=
  if b.state = .active then queueContent queue else r.nowFrozen

/-- A furnace record, half A or half B (R156, R157, R186). -/
def furnaceRecordBytes (v : View) (halfB : Bool) (minKg : Nat) (now : Kj) (r : FurnaceRecord) : List Byte :=
  if halfB then
    toBE 6 r.pull ++ toBE 4 r.meltCount.toNat ++ toBE 4 r.holdCount.toNat ++ toBE 4 r.heatupCount.toNat
      ++ toBE 4 r.estimatedCount.toNat ++ toBE 4 r.incompleteCount.toNat
      ++ toBE 3 (seOf (viewEnergy v r.attributed) r.pull minKg) ++ toBE 3 (seOf (viewEnergy v r.metered) r.pull minKg)
  else energyBytes v [r.metered, r.attributed, r.noPull, r.hold, r.heatup, r.atStart, now]

/-- A line record's total, formed at the read (R156). -/
def LineBankRecord.total (r : LineBankRecord) : Kj := (r.furnaceShare.add r.direct).add r.poolShare

/-- A line record, half A or half B (R156, R157, R186). -/
def lineRecordBytes (v : View) (halfB : Bool) (minKg : Nat) (r : LineBankRecord) : List Byte :=
  if halfB then
    toBE 6 r.grossMass ++ toBE 6 r.packedMass ++ toBE 4 r.runningCount.toNat ++ toBE 4 r.jobChangeCount.toNat
      ++ toBE 4 r.stoppedCount.toNat ++ toBE 4 r.offCount.toNat ++ toBE 4 r.estimatedCount.toNat
      ++ toBE 4 r.incompleteCount.toNat ++ toBE 4 r.implausibleCount.toNat ++ toBE 4 r.manualCount.toNat
      ++ toBE 4 r.saturatedCount.toNat
  else
    energyBytes v [r.furnaceShare, r.direct, r.poolShare, r.total]
      ++ toBE 3 (seOf (viewEnergy v r.total) r.grossMass minKg) ++ toBE 3 (seOf (viewEnergy v r.total) r.packedMass minKg)

/-- The plant record (R156, R157). -/
def plantRecordBytes (v : View) (minKg : Nat) (r : PlantRecord) : List Byte :=
  energyBytes v [r.metered, r.monitor, r.unattributed] ++ toBE 6 r.grossMass ++ toBE 6 r.packedMass
    ++ toBE 3 (seOf (viewEnergy v r.metered) r.packedMass minKg)

/-- The five kinds of READ BANK RECORD (13.3). -/
inductive BankKind where
  | header | furnace | line | pool | plant
deriving DecidableEq, Repr

/-- The kind a code names (13.3). -/
def bankKindOfCode : Nat → Option BankKind
  | 0 => some .header
  | 1 => some .furnace
  | 2 => some .line
  | 3 => some .pool
  | 4 => some .plant
  | _ => none

/-- Records of a kind, and its map table (R158). -/
def bankKindShape : BankKind → Nat × Nat
  | .header => (1, tableGlobal)
  | .furnace => (4, tableFurnace)
  | .line => (12, tableLine)
  | .pool => (4, tablePool)
  | .plant => (1, tableGlobal)

/-- Whether READ BANK RECORD allows a view for a kind (R156, R186). -/
def bankViewAllowed (k : BankKind) (v : View) (halfB : Bool) : Bool :=
  match k with
  | .header => v == .totals && !halfB
  | .furnace => true
  | .line => true
  | .pool => !halfB
  | .plant => !halfB

/-- The fields of one record after the prefix; the minima are those of the active map at the read (R157). DESIGN CHOICE (log entry
44): the saturation flag is 1 for set, 0 for clear. -/
def bankPart (s : State) (b : Bank) (k : BankKind) (index : Nat) (v : View) (halfB : Bool) : List Byte :=
  let m := s.plant.active
  match k with
  | .header => toBE 4 b.first.toNat ++ [byteOf (causeCode b.cause), flagByte b.saturated]
  | .furnace =>
    match toIdx 4 index with
    | some f =>
      furnaceRecordBytes v halfB (m.furnaces.get f).minMass (inProcessNow b (s.furnaces.get f).queue (b.furnaces.get f))
        (b.furnaces.get f)
    | none => []
  | .line =>
    match toIdx 12 index with
    | some l => lineRecordBytes v halfB (m.lines.get l).minMass (b.lines.get l)
    | none => []
  | .pool =>
    match toIdx 4 index with
    | some p => energyBytes v [(b.pools.get p).metered, (b.pools.get p).shared, (b.pools.get p).unattributed]
    | none => []
  | .plant => plantRecordBytes v m.global.plantMin b.plant

/-- The bank that holds a role now (R155). -/
def State.bankInRole (s : State) (frozen : Bool) : Option (Fin 2) := if frozen then s.frozenIdx else some s.activeIdx

/-- READ BANK RECORD at the period banks, judged in the order of R158. -/
def bankCopy (s : State) (role kind index : Nat) (view : Byte) : Copy :=
  if 1 < role then rangeFault tableGlobal role 1
  else
    match bankKindOfCode kind with
    | none => rangeFault tableGlobal kind 2
    | some k =>
      if (bankKindShape k).1 ≤ index then rangeFault (bankKindShape k).2 index 3
      else
        match viewOfByte view with
        | none => rangeFault (bankKindShape k).2 index 4
        | some (v, halfB) =>
          if !bankViewAllowed k v halfB then rangeFault (bankKindShape k).2 index 4
          else
            match s.bankInRole (role == 1) with
            | none => stateFault
            | some i => .ok (bankPrefix i (s.banks.get i) ++ bankPart s (s.banks.get i) k index v halfB)

/-! ## READ STORE (R183) -/

/-- The status view (R183, 13.6). -/
def storeStatusBytes (st : Store) (wpN : Bool) : List Byte :=
  [byteOf (st.lock.toNat + 2 * st.freeze.toNat + 4 * wpN.toNat), byteOf (lastOpCode st.lastOp), byteOf (outcomeCode st.outcome),
   byteOf st.failedStep] ++ Image.bytes st.image 0 12

/-- READ STORE at the configuration store (R183). DESIGN CHOICE (log entry 42): a busy store refuses before the selector is
judged. -/
def storeCopy (s : State) (wpN : Bool) (selector : Nat) : Copy :=
  if s.store.busy then .error (.result .refusedBusy)
  else if selector = 255 then .ok (storeStatusBytes s.store wpN)
  else if 127 < selector then rangeFault tableGlobal selector 1
  else .ok (byteOf selector :: Image.bytes s.store.image (selector * 32) 32)

end Sys2Proof.Machine
end

