-- ==== Sys2Proof/Machine/Port.lean ====
section
/-! DEFINITION. The client ports' side of a transaction: judging a write or a read command, recording its result and refusal
detail, filling the snapshot buffer, and the bytes driven on SDO (R160 to R170). -/

namespace Sys2Proof.Machine

/-! ## Rights and lengths (R165, R167, 13.4) -/

/-- The write commands of R164. -/
def isWrite : Command → Bool
  | .clearNotices => true
  | .setNoticeMask => true
  | .setFurnaceState => true
  | .setLag => true
  | .lineTally => true
  | .setLineState => true
  | .writeStagedEntry => true
  | .commit => true
  | .discardStaged => true
  | .startAccounting => true
  | .stopAccounting => true
  | .closePeriod => true
  | .accountingReset => true
  | .clearLinkCounters => true
  | .injectWords => true
  | .saveImage => true
  | .loadImage => true
  | .setStoreProtect => true
  | .readStatus => false
  | .readId => false
  | .readNotices => false
  | .readResult => false
  | .readBankRecord => false
  | .readPointState => false
  | .readQueue => false
  | .readLinkStatus => false
  | .readStagedEntry => false
  | .readActiveEntry => false
  | .readStore => false

/-- Whether a port has the right to a command; the reads and the notice commands belong to every port (R167). -/
def hasRight (p : Port) : Command → Bool
  | .readStatus => true
  | .readId => true
  | .readNotices => true
  | .readResult => true
  | .readBankRecord => true
  | .readPointState => true
  | .readQueue => true
  | .readLinkStatus => true
  | .readStagedEntry => true
  | .readActiveEntry => true
  | .readStore => true
  | .clearNotices => true
  | .setNoticeMask => true
  | .setFurnaceState => p == .m
  | .setLag => p == .m
  | .lineTally => p == .f
  | .setLineState => p == .f
  | .writeStagedEntry => p == .e
  | .commit => p == .e
  | .discardStaged => p == .e
  | .startAccounting => p == .e
  | .stopAccounting => p == .e
  | .closePeriod => p == .e
  | .accountingReset => p == .e
  | .clearLinkCounters => p == .e
  | .injectWords => p == .e
  | .saveImage => p == .e
  | .loadImage => p == .e
  | .setStoreProtect => p == .e

/-- Whether a whole transaction of `n` bytes suits a command: for a write its one length (INJECT WORDS: 2 + 3w, w from 1 to
32), for a read at least its command byte and selectors (R165, R166, 13.4). -/
def lengthSuits (c : Command) (n : Nat) : Bool :=
  match c with
  | .readStatus => decide (1 ≤ n)
  | .readId => decide (1 ≤ n)
  | .readNotices => decide (1 ≤ n)
  | .readResult => decide (4 ≤ n)
  | .readBankRecord => decide (5 ≤ n)
  | .readPointState => decide (3 ≤ n)
  | .readQueue => decide (3 ≤ n)
  | .readLinkStatus => decide (2 ≤ n)
  | .readStagedEntry => decide (3 ≤ n)
  | .readActiveEntry => decide (3 ≤ n)
  | .readStore => decide (2 ≤ n)
  | .clearNotices => n == 3
  | .setNoticeMask => n == 3
  | .setFurnaceState => n == 3
  | .setLag => n == 3
  | .lineTally => n == 14
  | .setLineState => n == 3
  | .writeStagedEntry => n == 35
  | .commit => n == 1
  | .discardStaged => n == 1
  | .startAccounting => n == 5
  | .stopAccounting => n == 1
  | .closePeriod => n == 1
  | .accountingReset => n == 1
  | .clearLinkCounters => n == 2
  | .injectWords => decide (5 ≤ n ∧ n ≤ 98 ∧ n % 3 = 2)
  | .saveImage => n == 1
  | .loadImage => n == 1
  | .setStoreProtect => n == 2

/-- The number of selector bytes of a read command (13.4). -/
def selectorCount : Command → Nat
  | .readResult => 3
  | .readBankRecord => 4
  | .readPointState => 2
  | .readQueue => 2
  | .readLinkStatus => 1
  | .readStagedEntry => 2
  | .readActiveEntry => 2
  | .readStore => 1
  | .readStatus => 0
  | .readId => 0
  | .readNotices => 0
  | .clearNotices => 0
  | .setNoticeMask => 0
  | .setFurnaceState => 0
  | .setLag => 0
  | .lineTally => 0
  | .setLineState => 0
  | .writeStagedEntry => 0
  | .commit => 0
  | .discardStaged => 0
  | .startAccounting => 0
  | .stopAccounting => 0
  | .closePeriod => 0
  | .accountingReset => 0
  | .clearLinkCounters => 0
  | .injectWords => 0
  | .saveImage => 0
  | .loadImage => 0
  | .setStoreProtect => 0

/-! ## Recording the outcome at the port (R163, R169) -/

/-- An answer recorded as the port's last result; a REFUSED_RANGE replaces the refusal detail, no other result does
(R169). -/
def PortUnit.record (a : Answer) (u : PortUnit) : PortUnit :=
  match a with
  | .result r => { u with lastResult := r }
  | .range d => { u with lastResult := .refusedRange, detail := d }

/-- The end of a transaction: the decoder idle and the bytes the part drove on SDO kept (R160, R161). -/
def PortUnit.close (sent : List Byte) (u : PortUnit) : PortUnit := { u with decoder := none, sent := sent }

/-- The unit of port `p` changed by `f`. -/
def State.onPort (p : Port) (f : PortUnit → PortUnit) (s : State) : State :=
  { s with ports := s.ports.put p (f (s.ports.get p)) }

/-- What the transaction decoder holds when a command of a transfer is judged: the command byte, the whole bytes received
and the argument bytes, of which 97 are kept (R160, R165). -/
def transactionOf (c : Command) (t : Transfer) : Transaction :=
  ⟨commandCode c, 1 + t.bytes.length, t.bytes.take Config.keptArgs⟩

/-! ## Write commands (R165) -/

/-- What an owning block does with the argument bytes of a command. -/
abbrev Owner := List Byte → State → State × Answer

/-- A write command judged at the rise of CS_N: BOOTING, rights, length, then the owning block; the first failed check
decides (R165 checks 2 to 5). -/
def judgeWrite (c : Command) (t : Transfer) (owner : Owner) (s : State) : State × Answer :=
  let x := transactionOf c t
  if s.ctrl.acc = .booting then (s, .result .refusedBusy)
  else if !hasRight t.port c then (s, .result .refusedRights)
  else if !lengthSuits c x.count then (s, .result .refusedForm)
  else owner x.args s

/-- A whole transaction of a write command: the status byte goes out with byte 0 and 0xFF with every byte after it, the
command is judged, and its answer recorded (R161, R162, R165). -/
def writeTransaction (c : Command) (t : Transfer) (owner : Owner) (s : State) : State :=
  let x := judgeWrite c t owner s
  let sent := s.status t.port :: List.replicate t.bytes.length 0xFF
  x.1.onPort t.port fun u => (u.record x.2).close sent

/-! ## Read commands (R166) -/

/-- A snapshot buffer holding a copy from byte 0 and 0xFF after it (R166). -/
def bufferOf (copy : List Byte) : List Byte := copy ++ List.replicate (Config.bufferSize - copy.length) 0xFF

/-- The bytes shifted out after the last selector byte: the buffer in order, 0xFF after byte 63 (R166). -/
def shiftedOut (buffer : List Byte) (n : Nat) : List Byte := (buffer ++ List.replicate n 0xFF).take n

/-- A read command judged at its last selector byte: REFUSED_BUSY in BOOTING unless the command is taken then, else the
owning block's copy (R166, R168). -/
def judgeRead (takenInBooting : Bool) (copy : Copy) (s : State) : Copy :=
  if s.ctrl.acc = .booting ∧ !takenInBooting then .error (.result .refusedBusy) else copy

/-- The port after a read judged at its last selector byte: the copy, or all 0xFF where it was refused, in the buffer, and
the answer recorded (R166). -/
def PortUnit.afterRead (c : Copy) (u : PortUnit) : PortUnit :=
  match c with
  | .ok bytes => { u with buffer := bufferOf bytes, lastResult := .done }
  | .error a => { u with buffer := bufferOf [] }.record a

/-- A whole transaction of a read command with `sel` selector bytes. Where CS_N rises before the last of them no copy is made,
the result is REFUSED_FORM and the buffer is kept (R166); otherwise the copy is made and the bytes after the last selector
byte shift it out. `copy` makes the copy from the selector bytes. -/
def readTransaction (c : Command) (t : Transfer) (takenInBooting : Bool) (copy : List Byte → State → Copy) (s : State) :
    State :=
  let status := s.status t.port
  if lengthSuits c (transactionOf c t).count then
    let x := judgeRead takenInBooting (copy t.bytes s) s
    let sel := selectorCount c
    s.onPort t.port fun u =>
      let u' := u.afterRead x
      u'.close (status :: List.replicate sel 0xFF ++ shiftedOut u'.buffer (t.bytes.length - sel))
  else
    s.onPort t.port fun u =>
      (u.record (.result .refusedForm)).close (status :: List.replicate t.bytes.length 0xFF)

end Sys2Proof.Machine
end

