-- ==== Sys2Proof/Machine/Accounting.lean ====
section
/-! DEFINITION. The collection controller: START, STOP, CLOSE PERIOD, ACCOUNTING RESET, LINE TALLY, SET LINE STATE and the
interval mark (R51 to R54, R61 to R67). -/

namespace Sys2Proof.Machine

/-- START ACCOUNTING at the collection controller (R51). DESIGN CHOICE (log entry 36): the queues are kept as they stand whatever N
is, so a later push may repeat a number that a queue holds or come below it, where R102 says that no two are equal and that they
stand in order. -/
def startAccountingAt : Owner := fun b s =>
  if s.ctrl.acc = .ready then
    let n : BitVec 32 := BitVec.ofNat 32 (beAt b 0 4)
    ({ s with
        ctrl := { s.ctrl with acc := .running, current := n, lastClosed := n - 1 }
        sources := s.sources.allUnset }, .result .done)
  else (s, .result .refusedState)

/-- START_ACCOUNTING (R51). -/
def execStartAccounting (t : Transfer) (s : State) : Host.Outcome State Fault Refusal :=
  .next (writeTransaction .startAccounting t startAccountingAt s)

/-! ## The interval mark (R52 to R54, R63) -/

/-- The period-end flag and cause of the interval an accepted IMARK ends (R63). -/
def markOf (pmark latch : Bool) : Option CloseCause :=
  if pmark then some .mark else if latch then some .command else none

/-- The window of interval `n` opened in a FREE set, the lowest-numbered (R52 step 3, log entry 11). -/
def State.openWindow (n : BitVec 32) (mark : Option CloseCause) (s : State) : State :=
  match s.ctrl.setWith .free with
  | some j => s.putSet j { SlotSet.free with status := .opened, interval := n, mark := mark }
  | none => s

/-- An accepted IMARK (R52): the open window closes by deadline and its computation starts, the window of the interval ended
opens with its period-end mark, the latch is cleared, the interval number rises, and the new window's closure is judged. -/
def State.acceptMark (pmark : Bool) (s : State) : State :=
  let n := s.ctrl.current
  let s1 :=
    match s.ctrl.setWith .opened with
    | some i => s.closeWindow false i
    | none => s
  let s2 := s1.openWindow n (markOf pmark s.ctrl.closeLatch)
  let s3 : State := { s2 with ctrl := { s2.ctrl with current := n + 1, closeLatch := false } }
  s3.judgeClosure false

/-- A refused IMARK: OVERRUN, and MARK_LOST where PMARK is high (R53). -/
def State.refuseMark (pmark : Bool) (s : State) : State := (s.notify .overrun).notifyIf pmark .markLost

/-- IMARK, with PMARK at its level at the mark: accepted in RUNNING with the engine idle, refused with it busy, ignored in
every other state (R52, R53, R54). -/
def execImark (pmark : Bool) (s : State) : Host.Outcome State Fault Refusal :=
  .next (if s.ctrl.acc = .running then (if s.busy then s.refuseMark pmark else s.acceptMark pmark) else s)

/-! ## Line tallies and line states (R61, R62) -/

/-- A tally placed in its line's slot of the open window, replacing any there (R61). -/
def State.placeTally (i : Fin 2) (l : Fin 12) (x : Tally) (s : State) : State :=
  s.putSet i { s.ctrl.sets.get i with lines := (s.ctrl.sets.get i).lines.set l (some x) }

/-- LINE TALLY at the collection controller, judged in the order of R61; closure is judged after an accepted tally. -/
def lineTallyAt : Owner := fun b s =>
  let line := natAt b 0
  let x : Tally :=
    ⟨BitVec.ofNat 16 (beAt b 1 2), BitVec.ofNat 32 (beAt b 3 4), BitVec.ofNat 32 (beAt b 7 4), BitVec.ofNat 16 (beAt b 11 2)⟩
  match toIdx 12 line with
  | none => (s, .range ⟨tableLine, line, 1⟩)
  | some l =>
    if x.gobMass = 0 then (s, .range ⟨tableLine, line, 5⟩)
    else if !(s.plant.active.lines.get l).enabled || !s.accounting then (s, .result .refusedState)
    else
      match s.judgeTag x.tag with
      | .late => (s, .result .refusedLate)
      | .ahead => (s, .result .refusedAhead)
      | .taken i => ((s.placeTally i l x).judgeClosure false, .result .done)

/-- LINE_TALLY (R61). -/
def execLineTally (t : Transfer) (s : State) : Host.Outcome State Fault Refusal :=
  .next (writeTransaction .lineTally t lineTallyAt s)

/-- A line's state replaced. -/
def State.setLineState (l : Fin 12) (st : LineState) (s : State) : State :=
  { s with ctrl := { s.ctrl with lineStates := s.ctrl.lineStates.set l st } }

/-- SET LINE STATE at the collection controller; the change reaches the expected set at once (R62). DESIGN CHOICE (log entry 35):
the line is judged before the state. -/
def setLineStateAt : Owner := fun b s =>
  match toIdx 12 (natAt b 0) with
  | none => (s, .range ⟨tableLine, natAt b 0, 1⟩)
  | some l =>
    match lineStateOfCode (natAt b 1) with
    | none => (s, .range ⟨tableLine, l.val, 2⟩)
    | some st => ((s.setLineState l st).judgeClosure false, .result .done)

/-- SET_LINE_STATE (R62). -/
def execSetLineState (t : Transfer) (s : State) : Host.Outcome State Fault Refusal :=
  .next (writeTransaction .setLineState t setLineStateAt s)

/-! ## Periods and stopping (R64, R65) -/

/-- The close latch set or cleared. -/
def State.setLatch (b : Bool) (s : State) : State := { s with ctrl := { s.ctrl with closeLatch := b } }

/-- CLOSE PERIOD at the collection controller (R64). -/
def closePeriodAt : Owner := fun _ s =>
  if s.ctrl.acc = .running then (s.setLatch true, .result .done) else (s, .result .refusedState)

/-- CLOSE_PERIOD (R64). -/
def execClosePeriod (t : Transfer) (s : State) : Host.Outcome State Fault Refusal :=
  .next (writeTransaction .closePeriod t closePeriodAt s)

/-- The period-end flag of set `i` set with cause STOP, unless it is set already (R65). -/
def State.markStop (i : Fin 2) (s : State) : State :=
  let w := s.ctrl.sets.get i
  s.putSet i { w with mark := some (w.mark.getD .stop) }

/-- A STOP that finds no interval to mark: a swap with cause STOP where the ACTIVE bank holds an interval (log entry 39), then
READY (R65, R152). -/
def State.stopAtOnce (s : State) : State := (if s.beginsPeriod then s else s.swap .stop).returnToReady

/-- A STOP taken in RUNNING (R65): the latest interval not yet computed is marked (OPEN before WAITING before COMPUTING), an
open window closes by STOP, the latch is cleared and the state becomes STOPPING; with none, READY at once. -/
def State.stopRun (s : State) : State :=
  let s0 := s.setLatch false
  match s0.ctrl.setWith .opened with
  | some i => ((s0.markStop i).setAcc .stopping).closeWindow false i
  | none =>
    match s0.ctrl.setWith .waiting with
    | some i => (s0.markStop i).setAcc .stopping
    | none =>
      match s0.ctrl.setWith .computing with
      | some i => (s0.markStop i).setAcc .stopping
      | none => s0.stopAtOnce

/-- STOP ACCOUNTING at the collection controller (R65). -/
def stopAccountingAt : Owner := fun _ s =>
  if s.ctrl.acc = .running then (s.stopRun, .result .done) else (s, .result .refusedState)

/-- STOP_ACCOUNTING (R65). -/
def execStopAccounting (t : Transfer) (s : State) : Host.Outcome State Fault Refusal :=
  .next (writeTransaction .stopAccounting t stopAccountingAt s)

/-! ## Accounting reset (R67, R129) -/

/-- Everything an ACCOUNTING RESET returns to its starting point (R67). -/
def State.accountingReset (s : State) : State :=
  let s1 : State := { s with
    plant := { s.plant with commitPending := false }
    ctrl := { s.ctrl with
      acc := if s.ctrl.acc = .unconfigured then AccState.unconfigured else AccState.ready
      sets := .const 2 .free, closeLatch := false }
    sources := s.sources.allUnset
    residues := .const 128 0
    furnaces := s.furnaces.mapIdx fun _ f => { f with queue := [] }
    engine := .idle
    working := none
    published := none
    banks := Bank.afterReset }
  s1.notify .accReset

/-- ACCOUNTING RESET at the collection controller (R67). -/
def accountingResetAt : Owner := fun _ s => (s.accountingReset, .result .done)

/-- ACCOUNTING_RESET (R67). -/
def execAccountingReset (t : Transfer) (s : State) : Host.Outcome State Fault Refusal :=
  .next (writeTransaction .accountingReset t accountingResetAt s)

end Sys2Proof.Machine
end

