-- ==== Sys2Proof/Machine/Maps.lean ====
section
/-! DEFINITION. The commands of the plant map: WRITE STAGED ENTRY, COMMIT, DISCARD STAGED (R9, R11 to R13). -/

namespace Sys2Proof.Machine

/-- The staged map replaced. -/
def State.setStaged (m : PlantMap) (s : State) : State := { s with plant := { s.plant with staged := m } }

/-- WRITE STAGED ENTRY at the plant map: commit-pending, selector, fields, in that order (R9). -/
def writeStaged : Owner := fun b s =>
  if s.plant.commitPending then (s, .result .refusedBusy)
  else
    match writeEntry s.plant.staged (natAt b 0) (natAt b 1) (b.drop 2) with
    | .ok m => (s.setStaged m, .result .done)
    | .error d => (s, .range d)

/-- WRITE_STAGED_ENTRY (R9). -/
def execWriteStagedEntry (t : Transfer) (s : State) : Host.Outcome State Fault Refusal :=
  .next (writeTransaction .writeStagedEntry t writeStaged s)

/-- Whether a LOAD IMAGE is in flight (R12). -/
def Store.loading (st : Store) : Bool := st.op == .load

/-- A COMMIT whose checks pass (R13): applied at once in UNCONFIGURED (which becomes READY) and READY, planned in RUNNING and
STOPPING. Closure is judged at the apply (R17, R18). -/
def State.takeCommit (s : State) : State × Answer :=
  match s.ctrl.acc with
  | .unconfigured => ((s.applyMap.setAcc .ready).judgeClosure false, .result .done)
  | .ready => (s.applyMap.judgeClosure false, .result .done)
  | .running => ({ s with plant := { s.plant with commitPending := true } }, .result .accepted)
  | .stopping => ({ s with plant := { s.plant with commitPending := true } }, .result .accepted)
  | .booting => (s, .result .refusedBusy)

/-- COMMIT at the plant map: absorbed while commit-pending, refused during a LOAD, checked, then taken (R12, R13). -/
def commitStaged : Owner := fun _ s =>
  if s.plant.commitPending then (s, .result .done)
  else if s.store.loading then (s, .result .refusedBusy)
  else
    match mapCheck s.plant.staged with
    | some d => (s, .range d)
    | none => s.takeCommit

/-- COMMIT (R12). -/
def execCommit (t : Transfer) (s : State) : Host.Outcome State Fault Refusal :=
  .next (writeTransaction .commit t commitStaged s)

/-- DISCARD STAGED at the plant map (R11). -/
def discardStagedMap : Owner := fun _ s =>
  if s.plant.commitPending then (s, .result .refusedBusy) else (s.setStaged s.plant.active, .result .done)

/-- DISCARD_STAGED (R11). -/
def execDiscardStaged (t : Transfer) (s : State) : Host.Outcome State Fault Refusal :=
  .next (writeTransaction .discardStaged t discardStagedMap s)

end Sys2Proof.Machine
end

