-- ==== Sys2Proof/Machine/Reads.lean ====
section
/-! DEFINITION. The eleven read commands and UNKNOWN (R162, R165, R166). -/

namespace Sys2Proof.Machine

/-- Further bytes of a READ STATUS in progress, `n` of them, each the status byte `b` as formed now; CS_N rises after them where
`ends`. With no READ STATUS in progress the port's CS_N is high, or low since before a pin reset, and the bytes are ignored
(R161, R176). -/
def PortUnit.goOn (b : Byte) (n : Nat) (ends : Bool) (u : PortUnit) : PortUnit :=
  match u.decoder with
  | some x =>
    if x.code = commandCode .readStatus then
      { u with
          decoder := if ends then none else some { x with count := x.count + n }
          sent := u.sent ++ List.replicate n b }
    else u
  | none => u

/-- A stretch of a READ STATUS at its port: `b` is the status byte as formed now and `n` the number of bytes after the command
byte in the stretch. Last result, detail and buffer are unchanged (R162). -/
def PortUnit.readStatus (b : Byte) (n : Nat) (part : Stretch) (u : PortUnit) : PortUnit :=
  match part with
  | .whole => u.close (List.replicate (1 + n) b)
  | .first => { u with decoder := some ⟨commandCode .readStatus, 1 + n, []⟩, sent := List.replicate (1 + n) b }
  | .further => u.goOn b n false
  | .last => u.goOn b n true

/-- READ_STATUS: the status byte for every byte while CS_N stays low, formed afresh at each stretch of the transaction
(R162). -/
def execReadStatus (t : StatusRead) (s : State) : Host.Outcome State Fault Refusal :=
  .next (s.onPort t.transfer.port fun u =>
    u.readStatus (s.status t.transfer.port) t.transfer.bytes.length t.part)

/-- READ_ID: taken even during BOOTING (R168, R171). -/
def execReadId (t : Transfer) (s : State) : Host.Outcome State Fault Refusal :=
  .next (readTransaction .readId t true (fun _ _ => .ok (idCopy t.port)) s)

/-- READ_NOTICES (R174). -/
def execReadNotices (t : Transfer) (s : State) : Host.Outcome State Fault Refusal :=
  .next (readTransaction .readNotices t false (fun _ s => .ok (noticesCopy (s.ports.get t.port))) s)

/-- READ_RESULT: kind, index, view (R141). -/
def execReadResult (t : Transfer) (s : State) : Host.Outcome State Fault Refusal :=
  .next (readTransaction .readResult t false (fun b s => resultCopy s (natAt b 0) (natAt b 1) (byteAt b 2)) s)

/-- The state at the moment of a READ_BANK_RECORD: `beforeSwap` finds the due interval added and its swap still to come, where
a completion with a swap is due (R155; log entry 32). -/
def State.atMoment (m : ReadMoment) (s : State) : State :=
  match m with
  | .inTurn => s
  | .beforeSwap => s.atStage .totalled State.bankInterval

/-- READ_BANK_RECORD: role, kind, index, view, copied from the bank as it stands at the read's moment (R155). -/
def execReadBankRecord (t : BankRead) (s : State) : Host.Outcome State Fault Refusal :=
  .next (readTransaction .readBankRecord t.transfer false
    (fun b s => bankCopy s (natAt b 0) (natAt b 1) (natAt b 2) (byteAt b 3)) (s.atMoment t.moment))

/-- READ_POINT_STATE: kind, index (R88). -/
def execReadPointState (t : Transfer) (s : State) : Host.Outcome State Fault Refusal :=
  .next (readTransaction .readPointState t false (fun b s => pointStateCopy s (natAt b 0) (natAt b 1)) s)

/-- READ_QUEUE: furnace, selector (R112). -/
def execReadQueue (t : Transfer) (s : State) : Host.Outcome State Fault Refusal :=
  .next (readTransaction .readQueue t false (fun b s => queueCopy s (natAt b 0) (natAt b 1)) s)

/-- READ_LINK_STATUS: link (R36). -/
def execReadLinkStatus (t : Transfer) (s : State) : Host.Outcome State Fault Refusal :=
  .next (readTransaction .readLinkStatus t false (fun b s => linkStatusCopy s (natAt b 0)) s)

/-- READ_STAGED_ENTRY: table, index (R10). -/
def execReadStagedEntry (t : Transfer) (s : State) : Host.Outcome State Fault Refusal :=
  .next (readTransaction .readStagedEntry t false (fun b s => entryCopy s.plant.staged (natAt b 0) (natAt b 1)) s)

/-- READ_ACTIVE_ENTRY: table, index (R10). -/
def execReadActiveEntry (t : Transfer) (s : State) : Host.Outcome State Fault Refusal :=
  .next (readTransaction .readActiveEntry t false (fun b s => entryCopy s.plant.active (natAt b 0) (natAt b 1)) s)

/-- READ_STORE: selector, with WP_N at its level at the copy (R183). -/
def execReadStore (t : Transfer) (wpN : Bool) (s : State) : Host.Outcome State Fault Refusal :=
  .next (readTransaction .readStore t false (fun b s => storeCopy s wpN (natAt b 0)) s)

/-- `n` free values drawn: the bytes on SDO that the spec does not state (log entry 3). -/
def State.drawFree (n : Nat) (s : State) : List Byte × State :=
  ((List.range n).map fun k => Config.freeByte (s.freeIdx + k), { s with freeIdx := s.freeIdx + n })

/-- UNKNOWN: a transaction whose command byte names no command is judged UNKNOWN and has no other effect (R165 check 1); the
bytes SDO carries after the status byte are free values, and one more is drawn for a byte cut short. A term whose command byte names a command is refused. -/
def execUnknown (code : Byte) (t : Transfer) (s : State) : Host.Outcome State Fault Refusal :=
  match commandOfCode code with
  | some _ => .refused .commandByteKnown
  | none =>
    let n := t.bytes.length
    let x := s.drawFree (n + 1)
    .next (x.2.onPort t.port fun u => (u.record (.result .unknown)).close (s.status t.port :: x.1.take n))

end Sys2Proof.Machine
end

