-- ==== Sys2Proof/Machine/StoreOps.lean ====
section
/-! DEFINITION. The configuration store and the pin reset (R50, R177 to R184). -/

namespace Sys2Proof.Machine

/-- The store replaced. -/
def State.setStore (st : Store) (s : State) : State := { s with store := st }

/-- The four active lags. -/
def State.lags (s : State) : Tab 4 Nat := s.furnaces.mapIdx fun _ f => f.lag

/-- SAVE IMAGE at the store: busy, LOCK, then accepted with a snapshot of the staged map and the active lags (R180). -/
def saveImageAt : Owner := fun _ s =>
  if s.store.busy then (s, .result .refusedBusy)
  else if s.store.lock then (s, .result .refusedProtected)
  else (s.setStore { s.store with busy := true, op := .save s.plant.staged s.lags 0 }, .result .accepted)

/-- SAVE_IMAGE (R180). -/
def execSaveImage (t : Transfer) (s : State) : Host.Outcome State Fault Refusal :=
  .next (writeTransaction .saveImage t saveImageAt s)

/-- LOAD IMAGE at the store: busy, commit-pending, then accepted (R181). -/
def loadImageAt : Owner := fun _ s =>
  if s.store.busy then (s, .result .refusedBusy)
  else if s.plant.commitPending then (s, .result .refusedBusy)
  else (s.setStore { s.store with busy := true, op := .load }, .result .accepted)

/-- LOAD_IMAGE (R181). -/
def execLoadImage (t : Transfer) (s : State) : Host.Outcome State Fault Refusal :=
  .next (writeTransaction .loadImage t loadImageAt s)

/-- SET STORE PROTECT at the store: busy, range, FREEZE with WP_N low, then the cell takes the values given (R182). -/
def setStoreProtectAt (wpN : Bool) : Owner := fun b s =>
  let v := natAt b 0
  if s.store.busy then (s, .result .refusedBusy)
  else if 3 < v then (s, .range ⟨tableGlobal, v, 1⟩)
  else if s.store.freeze && !wpN then (s, .result .refusedProtected)
  else
    (s.setStore { s.store with lock := (byteAt b 0).getLsbD 0, freeze := (byteAt b 0).getLsbD 1 }, .result .done)

/-- SET_STORE_PROTECT, with WP_N at its level when the command is judged (R182). -/
def execSetStoreProtect (t : Transfer) (wpN : Bool) (s : State) : Host.Outcome State Fault Refusal :=
  .next (writeTransaction .setStoreProtect t (setStoreProtectAt wpN) s)

/-- One byte of a save erased and programmed, in ascending address order (R180). -/
def Store.writeByte (st : Store) : Store :=
  match st.op with
  | .save m lags k =>
    if k < Config.imageSize then
      { st with image := Image.write k ((imageBytes m lags).getD k 0) st.image, op := .save m lags (k + 1) }
    else st
  | .load => st
  | .none => st

/-- IMAGE_BYTE_WRITE (R180); not due unless a save has bytes left to write (log entry 8). -/
def execImageByteWrite (s : State) : Host.Outcome State Fault Refusal :=
  .next (s.setStore s.store.writeByte)

/-- The store at the end of an operation: idle, with what it recorded (R179, R180, R181). -/
def Store.finish (st : Store) (op : LastOp) (outcome : StoreOutcome) (step : Nat) : Store :=
  { st with busy := false, op := .none, lastOp := op, outcome := outcome, failedStep := step }

/-- Whether the last byte of a save has been written (R180). -/
def Store.saveWritten (st : Store) : Bool :=
  match st.op with
  | .save _ _ k => decide (Config.imageSize ≤ k)
  | .load => false
  | .none => false

/-- SAVE_COMPLETE (R180); not due until the last byte has been written (log entry 8). -/
def execSaveComplete (s : State) : Host.Outcome State Fault Refusal :=
  .next (if s.store.saveWritten then (s.setStore (s.store.finish .save .written 0)).notify .storeDone else s)

/-- A load that completes (R181): a good image replaces every staged entry, a bad one sets IMAGE_FAULT. -/
def State.completeLoad (s : State) : State :=
  match judgeImage s.store.image with
  | .good m _ =>
    ((s.setStore (s.store.finish .load .good 0)).setStaged m).notify .storeDone
  | .bad k => ((s.setStore (s.store.finish .load .bad k)).notify .imageFault).notify .storeDone

/-- LOAD_COMPLETE (R181); not due unless a load is in flight (log entry 8). -/
def execLoadComplete (s : State) : Host.Outcome State Fault Refusal :=
  .next (if s.store.op = .load then s.completeLoad else s)

/-! ## Start-up and pin reset (R19, R50, R176, R179, R184) -/

/-- The end of BOOTING (R19, R179): a good image loaded into both maps and the active lags, or the empty map, lags of 0 and
IMAGE_FAULT. -/
def State.endBooting (s : State) : State :=
  match judgeImage s.store.image with
  | .good m lags =>
    { s with
      plant := { s.plant with staged := m, active := m }
      furnaces := s.furnaces.mapIdx fun f x => { x with lag := lags.get f }
      store := s.store.finish .startUp .good 0
      ctrl := { s.ctrl with acc := .ready } }
  | .bad k =>
    let s1 : State := { s with
      plant := { s.plant with staged := .empty, active := .empty }
      furnaces := s.furnaces.mapIdx fun _ x => { x with lag := 0 }
      store := s.store.finish .startUp .bad k
      ctrl := { s.ctrl with acc := .unconfigured } }
    s1.notify .imageFault

/-- START_UP_READ_DONE (R179); not due outside BOOTING (log entry 8). -/
def execStartUpReadDone (s : State) : Host.Outcome State Fault Refusal :=
  .next (if s.ctrl.acc = .booting then s.endBooting else s)

/-- PIN_RESET: every block at its pin-reset value, the image area and the protect cell as they stand, a save or load in
flight aborted (R50, R176, R177, R184). The commands waiting in the queue are the outside world's and stay. -/
def execPinReset (s : State) : Host.Outcome State Fault Refusal :=
  .next { State.reset with
    store := .afterReset s.store.image s.store.lock s.store.freeze
    freeIdx := s.freeIdx
    pending := s.pending }

end Sys2Proof.Machine
end

