-- ==== Sys2Proof/Machine/Wires.lean ====
section
/-! DEFINITION. Link words, INJECT WORDS and CLEAR LINK COUNTERS (R21, R34, R45); the furnace commands of Port M (R103, R109);
the notice commands (R173, R174). -/

namespace Sys2Proof.Machine

/-! ## Links -/

/-- LINK_WORD: a word arrives from the wire of a link (R21). -/
def execLinkWord (link : Fin 8) (w : LinkWord) (s : State) : Host.Outcome State Fault Refusal :=
  .next (s.wireWord link w)

/-- The words of an INJECT WORDS command: a flags byte (S bit 2, E bit 1, P bit 0) and two data bytes each; an injected word
has no stop bit to fail (R22, R34, 13.1). -/
def injectedWords : List Byte → List LinkWord
  | f :: h :: l :: rest => ⟨h ++ l, f.getLsbD 2, f.getLsbD 1, f.getLsbD 0, true⟩ :: injectedWords rest
  | _ => []

/-- INJECT WORDS at the link receivers (R34). -/
def injectWordsAt : Owner := fun b s =>
  match toIdx 8 (natAt b 0) with
  | none => (s, .range ⟨tableLink, natAt b 0, 0⟩)
  | some l =>
    if (s.plant.active.links.get l).mode = .test then (s.injectRun l (injectedWords (b.drop 1)), .result .done)
    else (s, .result .refusedState)

/-- INJECT_WORDS (R34). -/
def execInjectWords (t : Transfer) (s : State) : Host.Outcome State Fault Refusal :=
  .next (writeTransaction .injectWords t injectWordsAt s)

/-- The links a CLEAR LINK COUNTERS selector names: one, or all with 0xFF (R45, 13.3). -/
def selectedLinks (selector : Nat) : Option (List (Fin 8)) :=
  if selector = 255 then some (indices 8) else (toIdx 8 selector).map fun l => [l]

/-- One link cleared as one change, and closure judged after it: a link that leaves quarantine joins the expected set
(R44, R45, R57; 95_what_each_step_holds.md lists ALL_IN within the command). -/
def State.clearOne (l : Fin 8) (s : State) : State := (s.clearLink l).judgeClosure false

/-- CLEAR LINK COUNTERS at the link error counters: the links one after another, each as one change (R45). -/
def clearLinkCountersAt : Owner := fun b s =>
  match selectedLinks (natAt b 0) with
  | none => (s, .range ⟨tableLink, natAt b 0, 0⟩)
  | some ls => (ls.foldl (fun s l => s.clearOne l) s, .result .done)

/-- CLEAR_LINK_COUNTERS (R45). -/
def execClearLinkCounters (t : Transfer) (s : State) : Host.Outcome State Fault Refusal :=
  .next (writeTransaction .clearLinkCounters t clearLinkCountersAt s)

/-! ## Furnaces -/

/-- SET FURNACE STATE at the residence queues (R103). DESIGN CHOICE (log entry 35): the furnace is judged before the state. -/
def setFurnaceStateAt : Owner := fun b s =>
  match toIdx 4 (natAt b 0) with
  | none => (s, .range ⟨tableFurnace, natAt b 0, 1⟩)
  | some f =>
    match furnaceStateOfCode (natAt b 1) with
    | none => (s, .range ⟨tableFurnace, f.val, 2⟩)
    | some st => (s.putFurnace f { s.furnaces.get f with state := st }, .result .done)

/-- SET_FURNACE_STATE (R103). -/
def execSetFurnaceState (t : Transfer) (s : State) : Host.Outcome State Fault Refusal :=
  .next (writeTransaction .setFurnaceState t setFurnaceStateAt s)

/-- A lag given to a furnace: active at once in READY and UNCONFIGURED, pending in RUNNING and STOPPING (R109). -/
def State.giveLag (f : Fin 4) (lag : Nat) (s : State) : State × Answer :=
  if s.accounting then (s.putFurnace f { s.furnaces.get f with pendingLag := some lag }, .result .accepted)
  else (s.putFurnace f { s.furnaces.get f with lag := lag, pendingLag := none }, .result .done)

/-- SET LAG at the residence queues (R109). DESIGN CHOICE (log entry 35): the furnace is judged before the lag. -/
def setLagAt : Owner := fun b s =>
  match toIdx 4 (natAt b 0) with
  | none => (s, .range ⟨tableFurnace, natAt b 0, 1⟩)
  | some f => if 63 < natAt b 1 then (s, .range ⟨tableFurnace, f.val, 2⟩) else s.giveLag f (natAt b 1)

/-- SET_LAG (R109). -/
def execSetLag (t : Transfer) (s : State) : Host.Outcome State Fault Refusal :=
  .next (writeTransaction .setLag t setLagAt s)

/-! ## Notices -/

/-- The sixteen-bit argument of a notice command, most significant byte first (R185). -/
def noticeArg (b : List Byte) : BitVec 16 := byteAt b 0 ++ byteAt b 1

/-- CLEAR NOTICES at port `p`'s notice unit (R173). -/
def clearNoticesAt (p : Port) : Owner := fun b s =>
  (s.onPort p fun u => { u with notices := u.notices &&& ~~~ noticeArg b }, .result .done)

/-- CLEAR_NOTICES (R173). -/
def execClearNotices (t : Transfer) (s : State) : Host.Outcome State Fault Refusal :=
  .next (writeTransaction .clearNotices t (clearNoticesAt t.port) s)

/-- SET NOTICE MASK at port `p`'s notice unit (R174). -/
def setNoticeMaskAt (p : Port) : Owner := fun b s => (s.onPort p fun u => { u with mask := noticeArg b }, .result .done)

/-- SET_NOTICE_MASK (R174). -/
def execSetNoticeMask (t : Transfer) (s : State) : Host.Outcome State Fault Refusal :=
  .next (writeTransaction .setNoticeMask t (setNoticeMaskAt t.port) s)

end Sys2Proof.Machine
end

