-- ==== Sys2Proof/Machine/Dispatch.lean ====
section
/-! DEFINITION. One arm per command: the meaning of each. -/

namespace Sys2Proof.Machine

/-- The effect of a command on everything but the queue of waiting commands. -/
def exec (i : Instr) (s : State) : Host.Outcome State Fault Refusal :=
  match i with
  | .readStatus t => Sys2Proof.Machine.execReadStatus t s
  | .readId t => Sys2Proof.Machine.execReadId t s
  | .readNotices t => Sys2Proof.Machine.execReadNotices t s
  | .readResult t => Sys2Proof.Machine.execReadResult t s
  | .readBankRecord t => Sys2Proof.Machine.execReadBankRecord t s
  | .readPointState t => Sys2Proof.Machine.execReadPointState t s
  | .readQueue t => Sys2Proof.Machine.execReadQueue t s
  | .readLinkStatus t => Sys2Proof.Machine.execReadLinkStatus t s
  | .readStagedEntry t => Sys2Proof.Machine.execReadStagedEntry t s
  | .readActiveEntry t => Sys2Proof.Machine.execReadActiveEntry t s
  | .readStore t w => Sys2Proof.Machine.execReadStore t w s
  | .clearNotices t => Sys2Proof.Machine.execClearNotices t s
  | .setNoticeMask t => Sys2Proof.Machine.execSetNoticeMask t s
  | .setFurnaceState t => Sys2Proof.Machine.execSetFurnaceState t s
  | .setLag t => Sys2Proof.Machine.execSetLag t s
  | .lineTally t => Sys2Proof.Machine.execLineTally t s
  | .setLineState t => Sys2Proof.Machine.execSetLineState t s
  | .writeStagedEntry t => Sys2Proof.Machine.execWriteStagedEntry t s
  | .commit t => Sys2Proof.Machine.execCommit t s
  | .discardStaged t => Sys2Proof.Machine.execDiscardStaged t s
  | .startAccounting t => Sys2Proof.Machine.execStartAccounting t s
  | .stopAccounting t => Sys2Proof.Machine.execStopAccounting t s
  | .closePeriod t => Sys2Proof.Machine.execClosePeriod t s
  | .accountingReset t => Sys2Proof.Machine.execAccountingReset t s
  | .clearLinkCounters t => Sys2Proof.Machine.execClearLinkCounters t s
  | .injectWords t => Sys2Proof.Machine.execInjectWords t s
  | .saveImage t => Sys2Proof.Machine.execSaveImage t s
  | .loadImage t => Sys2Proof.Machine.execLoadImage t s
  | .setStoreProtect t w => Sys2Proof.Machine.execSetStoreProtect t w s
  | .unknown code t => Sys2Proof.Machine.execUnknown code t s
  | .imark pmark => Sys2Proof.Machine.execImark pmark s
  | .linkWord link w => Sys2Proof.Machine.execLinkWord link w s
  | .pinReset => Sys2Proof.Machine.execPinReset s
  | .startUpReadDone => Sys2Proof.Machine.execStartUpReadDone s
  | .imageByteWrite => Sys2Proof.Machine.execImageByteWrite s
  | .saveComplete => Sys2Proof.Machine.execSaveComplete s
  | .loadComplete => Sys2Proof.Machine.execLoadComplete s
  | .reconciliationStage => Sys2Proof.Machine.execReconciliationStage s
  | .conversionStage => Sys2Proof.Machine.execConversionStage s
  | .residenceQueueStage => Sys2Proof.Machine.execResidenceQueueStage s
  | .furnaceSplit => Sys2Proof.Machine.execFurnaceSplit s
  | .poolSplit => Sys2Proof.Machine.execPoolSplit s
  | .totalsStage => Sys2Proof.Machine.execTotalsStage s
  | .completion => Sys2Proof.Machine.execCompletion s

end Sys2Proof.Machine
end

