-- ==== Sys2Proof/Machine/Sdo.lean ====
section
/-! DEFINITION. What a port sends on SDO, byte by byte and at every moment of a transaction, in a byte cut short too (R161, R162,
R166). The transaction is seen at the one state at which its command is taken (log entry 1). -/

namespace Sys2Proof.Machine

/-- The snapshot buffer of port `p` as a read command fills it (R166). -/
def State.readBuffer (p : Port) (i : Instr) (s : State) : List Byte :=
  match exec i s with
  | .next t => (t.ports.get p).buffer
  | .fault _ => []
  | .refused _ => []

/-- The byte port `p` sends next in a transaction in which these whole bytes came: the rows of the table of R161. After a command
byte that names no command it is a free value (log entry 3). -/
def State.nextByte (p : Port) (wpN : Bool) (received : List Byte) (s : State) : Byte :=
  match received with
  | [] => s.status p
  | b :: args =>
    match commandOfCode b with
    | none => Config.freeByte (s.freeIdx + args.length)
    | some c =>
      if c = .readStatus then s.status p
      else if isWrite c || decide (args.length < selectorCount c) then 0xFF
      else (s.readBuffer p (instrOfCommand c ⟨p, args⟩ wpN)).getD (args.length - selectorCount c) 0xFF

/-- The bytes port `p` sends in a transaction in which these whole bytes came: one with each of them, and the one after them, of
which a byte cut short shows the first bits (R161). Of a READ STATUS in progress the bytes of its earlier stretches stand (R162). -/
def State.reply (p : Port) (wpN : Bool) (received : List Byte) (s : State) : List Byte :=
  let u := s.ports.get p
  let earlier := if u.decoder.isSome then u.sent else []
  (List.range (received.length + 1)).map fun k => earlier.getD k (s.nextByte p wpN (received.take k))

/-- The level on SDO of port `p` at every moment of its serial side (R161). -/
def State.sdoLevel (p : Port) (wpN : Bool) (x : Serial) (s : State) : SdoLevel :=
  x.sdo (bitsOfBytes (s.reply p wpN x.received))

end Sys2Proof.Machine
end

