-- ==== Sys2Proof/Safety.lean ====
section
/-! DEFINITION. What the statements about the part are said in: a state after an answered command, the ranges of the map, and
the laws that every state of the part keeps. -/

namespace Sys2Proof.Machine

/-! ## A state after a command was answered (R161 to R166)

Each of these changes the sender's port alone. -/

/-- The bytes on SDO in a transaction of a write command with `n` bytes after its command byte (R161). -/
def State.writeSent (p : Port) (n : Nat) (s : State) : List Byte := s.status p :: List.replicate n 0xFF

/-- The bytes on SDO in a transaction of a read command with `sel` selector bytes and `extra` bytes after them, out of a
snapshot buffer (R161). -/
def State.readSent (p : Port) (sel extra : Nat) (buffer : List Byte) (s : State) : List Byte :=
  s.status p :: List.replicate sel 0xFF ++ (buffer ++ List.replicate extra 0xFF).take extra

/-- Port `p` with result `r` as its last result and `sent` driven on SDO; buffer, detail, notices and mask kept. -/
def State.answered (p : Port) (r : Result) (sent : List Byte) (s : State) : State :=
  s.onPort p fun u => { u with decoder := none, lastResult := r, sent := sent }

/-- Port `p` after a REFUSED_RANGE with refusal detail `d` (R169). -/
def State.answeredRange (p : Port) (d : Detail) (sent : List Byte) (s : State) : State :=
  s.onPort p fun u =>
    { u with decoder := none, lastResult := .refusedRange, detail := d, sent := sent }

/-- A snapshot buffer with a copy at its head and 0xFF after it (R166). -/
def paddedCopy (copy : List Byte) : List Byte := copy ++ List.replicate (64 - copy.length) 0xFF

/-- Port `p` after a read that made `copy` (R166). -/
def State.copied (p : Port) (sel extra : Nat) (copy : List Byte) (s : State) : State :=
  s.onPort p fun u =>
    { u with
        decoder := none, lastResult := .done, buffer := paddedCopy copy
        sent := s.readSent p sel extra (paddedCopy copy) }

/-- Port `p` after a read refused with result `r`: 64 bytes of 0xFF (R166). -/
def State.readRefused (p : Port) (r : Result) (sel extra : Nat) (s : State) : State :=
  s.onPort p fun u =>
    { u with
        decoder := none, lastResult := r, buffer := List.replicate 64 0xFF
        sent := s.readSent p sel extra (List.replicate 64 0xFF) }

/-- Port `p` after a read refused with REFUSED_RANGE and detail `d` (R166, R169). -/
def State.readRefusedRange (p : Port) (d : Detail) (sel extra : Nat) (s : State) : State :=
  s.onPort p fun u =>
    { u with
        decoder := none, lastResult := .refusedRange, detail := d, buffer := List.replicate 64 0xFF
        sent := s.readSent p sel extra (List.replicate 64 0xFF) }

/-! ## Ranges of the map (R2 to R8) -/

/-- Every field of a map within the range of R2 to R8. -/
structure PlantMap.inRange (m : PlantMap) : Prop where
  holdLimit : m.global.holdLimit ≤ 15
  threshold : 1 ≤ m.global.threshold ∧ m.global.threshold ≤ 255
  plantMin  : 1 ≤ m.global.plantMin ∧ m.global.plantMin ≤ 65535
  links     : ∀ l, (m.links.get l).concentrator ≤ 31 ∧ 1 ≤ (m.links.get l).pointCount ∧ (m.links.get l).pointCount ≤ 16
  points    : ∀ p, (m.points.get p).factor ≤ 4294967295 ∧ 1 ≤ (m.points.get p).maxInc ∧ (m.points.get p).maxInc ≤ 1048575
  furnaces  : ∀ f, 1 ≤ (m.furnaces.get f).minMass ∧ (m.furnaces.get f).minMass ≤ 65535
  lines     : ∀ l, 1 ≤ (m.lines.get l).maxGobs ∧ (m.lines.get l).maxGobs ≤ 65535 ∧ 1 ≤ (m.lines.get l).minMass ∧
                (m.lines.get l).minMass ≤ 65535 ∧ ∀ p, ((m.lines.get l).weights.get p) ≤ 255
  curves    : ∀ c s, ((m.curves.get c).gains.get s) ≤ 65535

/-! ## The ledger of a counter (R83) -/

/-- One counter of a source with what R83 speaks of: the counts booked and the counts observed since its baseline was last
taken. -/
structure Ledger where
  state    : SrcState
  run      : Nat
  counter  : CounterSet
  booked   : Nat
  observed : Nat
deriving DecidableEq, Repr

/-- Whether a delivery takes the baseline anew: on leaving UNSET or LOST, when its increment `d` is implausible, or when the debt
would overflow its field (R83). -/
def takesBaseline (modulus step d : Nat) (x : Ledger) : Bool :=
  match x.state with
  | .unset => true
  | .tracking => decide (step < d)
  | .estimating => decide (step * (x.run + 1) < d ∨ modulus ≤ x.counter.sum + x.counter.debt - d)
  | .lost => true

/-- One reconciliation entered in the ledger, under hold limit `h` and window `step`, with value `v` or none delivered. -/
def ledgerStep (modulus h step : Nat) (v : Option Nat) (x : Ledger) : Ledger :=
  match v with
  | some v =>
    let c := (x.counter.delivered modulus step x.state x.run v).1
    let d := increment modulus v x.counter.base
    if takesBaseline modulus step d x then ⟨.tracking, 0, c, 0, 0⟩
    else ⟨.tracking, 0, c, x.booked + c.booked, x.observed + d⟩
  | none =>
    let c := x.counter.missed h x.state x.run
    let k := SrcHead.missed h 0 ⟨x.state, x.run, .empty, 0⟩
    ⟨k.state, k.run, c, x.booked + c.booked, x.observed⟩

/-! ## Laws of every state -/

/-- The image area has its canonical form, and every residue is below 1 kJ (R89, R177). -/
def State.memoryLaw (s : State) : Prop :=
  Image.wf s.store.image ∧ ∀ p, s.residues.get p < 65536

/-- No accumulator of a bank is above 48 bits (R146, R148). One bank is ACTIVE and has no close cause; the other is EMPTY with
every field 0, or FROZEN with a close cause, a period number one below the ACTIVE bank's, and an in-process now equal to the
ACTIVE bank's in-process at start (R144, R149). -/
def State.bankLaw (s : State) : Prop :=
  (∀ i, (s.banks.get i).above = false) ∧
  ∃ i : Fin 2, (s.banks.get i).state = .active ∧ (s.banks.get i).cause = none ∧
    (s.banks.get (other i) = .cleared .empty 0 ∨
      ((s.banks.get (other i)).state = .frozen ∧ (s.banks.get (other i)).cause ≠ none ∧
        (s.banks.get (other i)).period + 1 = (s.banks.get i).period ∧
        ∀ f, ((s.banks.get (other i)).furnaces.get f).nowFrozen = ((s.banks.get i).furnaces.get f).atStart))

/-- What has entered a furnace's accounts in a bank's period, for one carrier: metered direct and in-process at start
(R150). -/
def FurnaceRecord.entered (c : Carrier) (r : FurnaceRecord) : Nat := r.metered.get c + r.atStart.get c

/-- What has left a furnace's accounts in a bank's period, for one carrier: attributed, no-pull, hold and heat-up (R150). -/
def FurnaceRecord.left (c : Carrier) (r : FurnaceRecord) : Nat :=
  r.attributed.get c + r.noPull.get c + r.hold.get c + r.heatup.get c

/-- Whether a computation is in the span of R150, between its residence queue stage and its completion: the queues hold the
interval's pushes and lack its releases, which the banks take at the completion. -/
def Phase.inSpan : Phase → Bool
  | .queued => true
  | .furnaceSplit => true
  | .poolSplit => true
  | .totalled => true
  | .banked => false
  | .idle => false
  | .started => false
  | .reconciled => false
  | .converted => false

/-- What a furnace entry of the working copy will add to the left side of the balance of R150 at the completion. -/
def FurnaceResult.entering (c : Carrier) (x : FurnaceResult) : Nat := x.metered.get c

/-- What it will add to the right side: the released energy, which the furnace split turns into attributed or no-pull, and
hold and heat-up energy. -/
def FurnaceResult.leaving (split : Bool) (c : Carrier) (x : FurnaceResult) : Nat :=
  (if split then x.attributed.get c + x.noPull.get c else x.released.get c) + x.hold.get c + x.heatup.get c

/-- The balance of R150. The FROZEN bank's, with its stored in-process now; and the ACTIVE bank's, with in-process now formed
from the queue, and in the span of R150 with what the working copy is about to add. A bank whose saturation flag is set, or
in the span is about to be, is exempt. -/
def State.balanceLaw (s : State) : Prop :=
  (∀ i, (s.banks.get i).state = .frozen → (s.banks.get i).saturated = false → ∀ f c,
    ((s.banks.get i).furnaces.get f).entered c =
      ((s.banks.get i).furnaces.get f).left c + ((s.banks.get i).furnaces.get f).nowFrozen.get c) ∧
  (s.activeBank.saturated = false → ∀ f c,
    (s.engine.phase.inSpan = false →
      (s.activeBank.furnaces.get f).entered c =
        (s.activeBank.furnaces.get f).left c + (queueContent (s.furnaces.get f).queue).get c) ∧
    (s.engine.phase.inSpan = true → s.engine.saturated = false → ∀ t, s.working = some t →
      match t.furnaces.get f with
      | some x =>
        (s.activeBank.furnaces.get f).entered c + x.entering c =
          (s.activeBank.furnaces.get f).left c + x.leaving (s.engine.phase != .queued) c
            + (queueContent (s.furnaces.get f).queue).get c
      | none =>
        (s.activeBank.furnaces.get f).entered c =
          (s.activeBank.furnaces.get f).left c + (queueContent (s.furnaces.get f).queue).get c))

/-- A link is quarantined exactly while a flag is set for a kind of the mask in force; while BOOTING the map in force is empty
and no flag is set (R37, R38, R48). -/
def State.quarantineLaw (s : State) : Prop :=
  (∀ l, (s.links.get l).quarantined = covered (s.links.get l).flags s.plant.active.global.quarantineMask) ∧
  (s.ctrl.acc = .booting → s.plant.active = .empty ∧ ∀ l, (s.links.get l).flags = .const false)

/-- A queue holds no more than 63 records between commands, each carrier of a record fits 40 bits, and every lag is 0 to 63
(R102, R106). -/
def State.queueLaw (s : State) : Prop :=
  ∀ f, (s.furnaces.get f).queue.length ≤ 63 ∧ (s.furnaces.get f).lag ≤ 63 ∧
    (∀ l, (s.furnaces.get f).pendingLag = some l → l ≤ 63) ∧
    ∀ r ∈ (s.furnaces.get f).queue, ∀ c, r.energy.get c ≤ 1099511627775

/-- The slot sets' law (R49, R55, R66): the engine works exactly while a set is COMPUTING, and then the working copy holds an
interval until it is published (R140; log entries 26 and 32); at most one set is COMPUTING and at most one OPEN or WAITING; a set
waits only while the other computes; in STOPPING one set is COMPUTING and none is OPEN; outside RUNNING and STOPPING both sets are
FREE. -/
structure SlotLaw (s : State) : Prop where
  engine   : s.engine.phase = .idle ↔ ∀ i, (s.ctrl.sets.get i).status ≠ .computing
  working  : (s.engine.phase = .idle ∨ s.engine.phase = .banked) ↔ s.working = none
  one      : ∀ i, (s.ctrl.sets.get i).status = .computing → (s.ctrl.sets.get (other i)).status ≠ .computing
  waiting  : ∀ i, (s.ctrl.sets.get i).status = .waiting → (s.ctrl.sets.get (other i)).status = .computing
  opened   : ∀ i, (s.ctrl.sets.get i).status = .opened →
               (s.ctrl.sets.get (other i)).status = .free ∨ (s.ctrl.sets.get (other i)).status = .computing
  stopping : s.ctrl.acc = .stopping →
               (∃ i, (s.ctrl.sets.get i).status = .computing) ∧ ∀ i, (s.ctrl.sets.get i).status ≠ .opened
  idle     : s.ctrl.acc ≠ .running → s.ctrl.acc ≠ .stopping → ∀ i, (s.ctrl.sets.get i).status = .free

/-- Between commands a port's decoder is idle, or holds a READ STATUS in progress with as many whole bytes received as it has sent
and no argument bytes (R160, R162; log entry 1); and its snapshot buffer holds 64 bytes (R166). -/
def State.portLaw (s : State) : Prop :=
  ∀ p, ((s.ports.get p).decoder = none ∨
      ((s.ports.get p).decoder = some ⟨0x01, (s.ports.get p).sent.length, []⟩ ∧ (s.ports.get p).sent ≠ [])) ∧
    (s.ports.get p).buffer.length = 64

/-- Both maps lie in the ranges of R2 to R8, and a run count is at most 15, and 0 outside ESTIMATING (R69, R84). -/
def State.rangeLaw (s : State) : Prop :=
  s.plant.staged.inRange ∧ s.plant.active.inRange ∧
  (∀ p, (s.sources.points.get p).head.run ≤ 15 ∧
    ((s.sources.points.get p).head.state ≠ .estimating → (s.sources.points.get p).head.run = 0)) ∧
  ∀ l, (s.sources.lines.get l).head.run ≤ 15 ∧
    ((s.sources.lines.get l).head.state ≠ .estimating → (s.sources.lines.get l).head.run = 0)

end Sys2Proof.Machine
end

