-- ==== Sys2Proof/WellFormed.lean ====
section
/-! DEFINITION. Which terms of `Instr` are commands of the part. Every byte list is a transaction the part answers, so the
one check is that UNKNOWN's command byte names no command (R165 check 1). -/

namespace Sys2Proof

/-- Whether a term is a command of the part. -/
def wellFormed : Instr → Bool
  | .unknown code _ => (commandOfCode code).isNone
  | .readStatus _ => true
  | .readId _ => true
  | .readNotices _ => true
  | .readResult _ => true
  | .readBankRecord _ => true
  | .readPointState _ => true
  | .readQueue _ => true
  | .readLinkStatus _ => true
  | .readStagedEntry _ => true
  | .readActiveEntry _ => true
  | .readStore _ _ => true
  | .clearNotices _ => true
  | .setNoticeMask _ => true
  | .setFurnaceState _ => true
  | .setLag _ => true
  | .lineTally _ => true
  | .setLineState _ => true
  | .writeStagedEntry _ => true
  | .commit _ => true
  | .discardStaged _ => true
  | .startAccounting _ => true
  | .stopAccounting _ => true
  | .closePeriod _ => true
  | .accountingReset _ => true
  | .clearLinkCounters _ => true
  | .injectWords _ => true
  | .saveImage _ => true
  | .loadImage _ => true
  | .setStoreProtect _ _ => true
  | .imark _ => true
  | .linkWord _ _ => true
  | .pinReset => true
  | .startUpReadDone => true
  | .imageByteWrite => true
  | .saveComplete => true
  | .loadComplete => true
  | .reconciliationStage => true
  | .conversionStage => true
  | .residenceQueueStage => true
  | .furnaceSplit => true
  | .poolSplit => true
  | .totalsStage => true
  | .completion => true

end Sys2Proof
end

