-- ==== Sys2Proof/Certificates/Slice0/Obligations.lean ====
section
/-! DEFINITION. The statements about the part. Each is a proposition and nothing is proved here. A statement that says what a
command does gives the whole state after it, so that it also says what the command leaves alone; `State.answered`,
`State.answeredRange`, `State.copied`, `State.readRefused` and `State.readRefusedRange` (Sys2Proof/Safety.lean) change the
sender's port alone. -/

open Sys2Proof Sys2Proof.Machine

/-! ## The queue, the ports and the bits on the wires -/

/-- A step runs the command at the front of the queue on the state with the queue's rest; an empty queue idles (log entry
9: the queue is this row's interface, not the spec's). -/
def Obligations.StepRunsTheFrontCommand : Prop :=
  (∀ (c : Instr) (q : List Instr) (s : State), step (s.withPending (c :: q)) = exec c (s.withPending q)) ∧
  ∀ s : State, s.pending = [] → step s = .next s

/-- The bits of a port command, whole bytes most significant bit first and up to seven bits of a byte cut short, decode to
that command with the level of WP_N it carries (R161, 13.4); a transaction with no whole byte spells none. The twenty-one bits
of a link word decode to that word (13.1). On SDO the part sends the bytes of the table of R161, most significant bit first, the next
one already after the last whole byte received, and its port keeps those sent with whole bytes; every falling edge of SCK brings
the next bit, from the fall of CS_N in mode 0 and from the first falling edge in mode 3. That a transaction is seen at one state (log
entry 1), that the level in mode 3 before that edge is unstated (log entry 2), and that the bytes after a command byte naming no
command are free values (log entry 3), are the model's. -/
def Obligations.TransactionBitsDecodeToTheirCommand : Prop :=
  (∀ (i : Instr) (code : Byte) (t : Transfer) (cut : List Bool), wellFormed i = true → portCommand i = some (code, t) →
    cut.length < 8 →
    encodeTransaction i = some (code :: t.bytes) ∧
    decodeTransaction t.port (wpNOf i) (bytesOfBits (bitsOfBytes (code :: t.bytes) ++ cut)) = some i) ∧
  (∀ (p : Port) (wpN : Bool) (cut : List Bool), cut.length < 8 → decodeTransaction p wpN (bytesOfBits cut) = none) ∧
  (∀ w : LinkWord, linkWordOfBits (bitsOfLinkWord w) = some w) ∧
  (∀ (p : Port) (wpN : Bool) (ps : List PinSample) (s : State),
    let x := ((Serial.idle true).run ps).1
    let bitOf (bits : List Bool) (k : Nat) : Bool :=
      ((s.reply p wpN (bytesOfBits bits)).getD (k / 8) 0).getLsbD (7 - k % 8)
    (∀ csN, x = .idle csN → s.sdoLevel p wpN x = .highZ) ∧
    (∀ sck bits falls, x = .active .mode0 sck bits falls → s.sdoLevel p wpN x = .bit (bitOf bits falls)) ∧
    (∀ sck bits, x = .active .mode3 sck bits 0 → s.sdoLevel p wpN x = .unstated) ∧
    ∀ sck bits falls, x = .active .mode3 sck bits (falls + 1) → s.sdoLevel p wpN x = .bit (bitOf bits falls)) ∧
  (∀ (p : Port) (wpN : Bool) (s : State), (s.ports.get p).decoder = none →
    let status := s.status p
    s.reply p wpN [] = [status] ∧
    (∀ (b : Byte) (args : List Byte), commandOfCode b = none →
      s.reply p wpN (b :: args) =
        status :: (List.range (args.length + 1)).map fun k => Config.freeByte (s.freeIdx + k)) ∧
    (∀ args : List Byte, s.reply p wpN (commandCode .readStatus :: args) = List.replicate (args.length + 2) status) ∧
    (∀ (c : Command) (args : List Byte), isWrite c = true ∨ (c ≠ .readStatus ∧ args.length < selectorCount c) →
      s.reply p wpN (commandCode c :: args) = status :: List.replicate (args.length + 1) 0xFF) ∧
    (∀ (c : Command) (args : List Byte), isWrite c = false → c ≠ .readStatus → selectorCount c ≤ args.length →
      ∃ t, exec (instrOfCommand c ⟨p, args⟩ wpN) s = .next t ∧
        s.reply p wpN (commandCode c :: args) =
          s.readSent p (selectorCount c) (args.length + 1 - selectorCount c) (t.ports.get p).buffer) ∧
    ∀ (received : List Byte) (i : Instr), decodeTransaction p wpN received = some i →
      ∃ t, exec i s = .next t ∧ (t.ports.get p).sent = (s.reply p wpN received).take received.length) ∧
  ∀ (p : Port) (wpN : Bool) (args : List Byte) (s : State),
    let u := s.ports.get p
    u.decoder ≠ none → u.sent.length ≤ args.length + 1 →
    s.reply p wpN (commandCode .readStatus :: args) =
      u.sent ++ List.replicate (args.length + 2 - u.sent.length) (s.status p)

/-- READ STATUS sends the status byte, as it stands when a stretch of the transaction is taken, for every byte of the stretch, and
changes nothing else; further bytes with no READ STATUS in progress are ignored (R161, R162). READ ID copies the identity record.
Both are taken in every accounting state (R168, R171, 13.6). That the bytes of one stretch are formed at one moment, and that a
command is taken at one moment, is the model's (log entry 1, DEDUCED). -/
def Obligations.ReadStatusAndReadIdAlwaysAnswer : Prop :=
  (∀ (p : Port) (bytes : List Byte) (s : State),
    let status : Byte :=
      BitVec.ofNat 8 (32 * accCode s.ctrl.acc + 16 * s.store.busy.toNat + resultCode (s.ports.get p).lastResult)
    exec (.readStatus ⟨⟨p, bytes⟩, .whole⟩) s = .next (s.onPort p fun u =>
      { u with decoder := none, sent := List.replicate (1 + bytes.length) status }) ∧
    exec (.readStatus ⟨⟨p, bytes⟩, .first⟩) s = .next (s.onPort p fun u =>
      { u with decoder := some ⟨0x01, 1 + bytes.length, []⟩, sent := List.replicate (1 + bytes.length) status }) ∧
    (∀ n, (s.ports.get p).decoder = some ⟨0x01, n, []⟩ →
      exec (.readStatus ⟨⟨p, bytes⟩, .further⟩) s = .next (s.onPort p fun u =>
        { u with
            decoder := some ⟨0x01, n + bytes.length, []⟩, sent := u.sent ++ List.replicate bytes.length status }) ∧
      exec (.readStatus ⟨⟨p, bytes⟩, .last⟩) s = .next (s.onPort p fun u =>
        { u with decoder := none, sent := u.sent ++ List.replicate bytes.length status })) ∧
    ((s.ports.get p).decoder = none →
      exec (.readStatus ⟨⟨p, bytes⟩, .further⟩) s = .next s ∧ exec (.readStatus ⟨⟨p, bytes⟩, .last⟩) s = .next s)) ∧
  ∀ (p : Port) (bytes : List Byte) (s : State),
    exec (.readId ⟨p, bytes⟩) s = .next (s.copied p 0 bytes.length
      [0x4B, 0x57, 0x04, 0x12, 1, 4, 12, 4, 8, 16, 64, match p with | .m => 0 | .f => 1 | .e => 2])

/-- CLEAR NOTICES clears the named bits, SET NOTICE MASK replaces the mask and READ NOTICES copies bits, mask and detail, all
at the sender's own unit (R173, R174). -/
def Obligations.NoticeCommandsActOnTheSendersUnit : Prop :=
  ∀ (p : Port) (s : State), s.ctrl.acc ≠ .booting →
    (∀ hi lo : Byte, exec (.clearNotices ⟨p, [hi, lo]⟩) s =
      .next ((s.onPort p fun u => { u with notices := u.notices &&& ~~~(hi ++ lo) }).answered p .done (s.writeSent p 2))) ∧
    (∀ hi lo : Byte, exec (.setNoticeMask ⟨p, [hi, lo]⟩) s =
      .next ((s.onPort p fun u => { u with mask := hi ++ lo }).answered p .done (s.writeSent p 2))) ∧
    ∀ bytes : List Byte, exec (.readNotices ⟨p, bytes⟩) s =
      .next (s.copied p 0 bytes.length
        (toBE 2 (s.ports.get p).notices.toNat ++ toBE 2 (s.ports.get p).mask.toNat ++
          [byteOf (s.ports.get p).detail.table, byteOf (s.ports.get p).detail.value, byteOf (s.ports.get p).detail.number]))

/-- ALERT of a port is low exactly while a set notice has its mask bit set, and what one port does never moves another's
(R175). -/
def Obligations.AlertIsLowExactlyOnAMaskedSetNotice : Prop :=
  (∀ u : PortUnit, u.alertLow = true ↔ ∃ k : Fin 16, u.notices.getLsbD k.val = true ∧ u.mask.getLsbD k.val = true) ∧
  ∀ (p q : Port) (f : PortUnit → PortUnit) (s : State), q ≠ p →
    ((s.onPort p f).ports.get q).alertLow = (s.ports.get q).alertLow

/-- READ STATUS aside, a read is refused during BOOTING (READ ID is not), and a read cut short of its last selector byte makes
no copy (R166, R168). Log entry 16: a read that is both is judged REFUSED_FORM, the model's choice. -/
def Obligations.ReadsRefusedBeforeTheirOwner : Prop :=
  ∀ (c : Command) (t : Transfer) (wpN : Bool) (s : State), isWrite c = false → c ≠ .readStatus →
    (t.bytes.length < selectorCount c →
      exec (instrOfCommand c t wpN) s =
        .next (s.answered t.port .refusedForm (s.writeSent t.port t.bytes.length))) ∧
    (selectorCount c ≤ t.bytes.length → c ≠ .readId → s.ctrl.acc = .booting →
      exec (instrOfCommand c t wpN) s =
        .next (s.readRefused t.port .refusedBusy (selectorCount c) (t.bytes.length - selectorCount c)))

/-- A write command is judged for BOOTING, then rights, then length; the first check that fails decides the result and the
owning block does not see the command (R165, R167, 13.4). -/
def Obligations.WritesRefusedBeforeTheirOwner : Prop :=
  (∀ (p : Port) (c : Command), hasRight p c = true ↔
    isWrite c = false ∨ c = .clearNotices ∨ c = .setNoticeMask ∨
    (p = .m ∧ c ∈ [Command.setFurnaceState, .setLag]) ∨
    (p = .f ∧ c ∈ [Command.lineTally, .setLineState]) ∨
    (p = .e ∧ c ∈ [Command.writeStagedEntry, .commit, .discardStaged, .startAccounting, .stopAccounting, .closePeriod,
      .accountingReset, .clearLinkCounters, .injectWords, .saveImage, .loadImage, .setStoreProtect])) ∧
  (∀ x ∈ [(Command.clearNotices, 3), (.setNoticeMask, 3), (.setFurnaceState, 3), (.setLag, 3), (.lineTally, 14),
      (.setLineState, 3), (.writeStagedEntry, 35), (.commit, 1), (.discardStaged, 1), (.startAccounting, 5),
      (.stopAccounting, 1), (.closePeriod, 1), (.accountingReset, 1), (.clearLinkCounters, 2), (.saveImage, 1),
      (.loadImage, 1), (.setStoreProtect, 2)],
    ∀ n, lengthSuits x.1 n = true ↔ n = x.2) ∧
  (∀ n, lengthSuits .injectWords n = true ↔ ∃ w, 1 ≤ w ∧ w ≤ 32 ∧ n = 2 + 3 * w) ∧
  ∀ (c : Command) (t : Transfer) (wpN : Bool) (s : State), isWrite c = true →
    (s.ctrl.acc = .booting →
      exec (instrOfCommand c t wpN) s =
        .next (s.answered t.port .refusedBusy (s.writeSent t.port t.bytes.length))) ∧
    (s.ctrl.acc ≠ .booting → hasRight t.port c = false →
      exec (instrOfCommand c t wpN) s =
        .next (s.answered t.port .refusedRights (s.writeSent t.port t.bytes.length))) ∧
    (s.ctrl.acc ≠ .booting → hasRight t.port c = true → lengthSuits c (1 + t.bytes.length) = false →
      exec (instrOfCommand c t wpN) s =
        .next (s.answered t.port .refusedForm (s.writeSent t.port t.bytes.length)))

/-- A transaction whose command byte names no command is judged UNKNOWN and changes nothing but its port (R165 check 1). The
bytes on SDO after the status byte are free values, and `freeIdx` counts them and one for a byte cut short (log entry 3, the
model's). A term UNKNOWN
whose byte names a command is refused (log entry 22, the model's). -/
def Obligations.UnknownCommandByteHasNoEffect : Prop :=
  ∀ (code : Byte) (t : Transfer) (s : State),
    (commandOfCode code = none → ∃ free : List Byte, free.length = t.bytes.length ∧
      exec (.unknown code t) s =
        .next (({ s with freeIdx := s.freeIdx + (t.bytes.length + 1) } : State).answered t.port .unknown
          (s.status t.port :: free))) ∧
    (commandOfCode code ≠ none → exec (.unknown code t) s = .refused .commandByteKnown)

/-! ## Reads -/

/-- READ LINK STATUS copies the link's state, or refuses a link number above 7 (R36, 13.6). The bit order of the flags byte (log
entry 29, DEDUCED), the slot index 0 in TAG (log entry 38) and quarantined as 1 and 0 (log entry 44) are the model's. -/
def Obligations.ReadLinkStatusCopiesTheLink : Prop :=
  ∀ (p : Port) (sel : Byte) (rest : List Byte) (s : State), s.ctrl.acc ≠ .booting →
    (∀ l : Fin 8, sel.toNat = l.val →
      let k := s.links.get l
      let reached : Nat × Nat := match k.rx.decoder with
        | .hunt => (0, 0)
        | .tag h => (h.pointCount, 0)
        | .points h _ got _ => (h.pointCount, got.length)
        | .discard => (0, 0)
      exec (.readLinkStatus ⟨p, sel :: rest⟩) s = .next (s.copied p 1 rest.length
        ([byteOf (linkModeCode (s.plant.active.links.get l).mode), byteOf (decoderCode k.rx.decoder), byteOf reached.1,
          byteOf reached.2, byteOf (k.rx.lastSeq.toNat + 128 * k.rx.armed.toNat)]
          ++ toBE 2 k.rx.taken.toNat ++ toBE 2 k.rx.discarded.toNat
          ++ [k.counts.line, k.counts.form, k.counts.sequence, k.counts.timing, maskByte k.flags,
            flagByte k.quarantined]))) ∧
    (7 < sel.toNat →
      exec (.readLinkStatus ⟨p, sel :: rest⟩) s = .next (s.readRefusedRange p ⟨1, sel.toNat, 0⟩ 1 rest.length))

/-- READ STAGED ENTRY and READ ACTIVE ENTRY copy the selected entry padded with zeros, or refuse a bad selector with the detail
of R9 (R10, R185, 13.5). -/
def Obligations.ReadEntriesCopyTheMaps : Prop :=
  ∀ (p : Port) (table index : Byte) (rest : List Byte) (s : State), s.ctrl.acc ≠ .booting →
    (6 < table.toNat →
      exec (.readStagedEntry ⟨p, table :: index :: rest⟩) s =
        .next (s.readRefusedRange p ⟨0, table.toNat, 0⟩ 2 rest.length) ∧
      exec (.readActiveEntry ⟨p, table :: index :: rest⟩) s =
        .next (s.readRefusedRange p ⟨0, table.toNat, 0⟩ 2 rest.length)) ∧
    (∀ n, tableEntries table.toNat = some n → n ≤ index.toNat →
      exec (.readStagedEntry ⟨p, table :: index :: rest⟩) s =
        .next (s.readRefusedRange p ⟨table.toNat, index.toNat, 0⟩ 2 rest.length) ∧
      exec (.readActiveEntry ⟨p, table :: index :: rest⟩) s =
        .next (s.readRefusedRange p ⟨table.toNat, index.toNat, 0⟩ 2 rest.length)) ∧
    ∀ n, tableEntries table.toNat = some n → index.toNat < n →
      (∃ image, entryImage s.plant.staged table.toNat index.toNat = some image ∧
        exec (.readStagedEntry ⟨p, table :: index :: rest⟩) s =
          .next (s.copied p 2 rest.length (table :: index :: (image ++ List.replicate (32 - image.length) 0)))) ∧
      ∃ image, entryImage s.plant.active table.toNat index.toNat = some image ∧
        exec (.readActiveEntry ⟨p, table :: index :: rest⟩) s =
          .next (s.copied p 2 rest.length (table :: index :: (image ++ List.replicate (32 - image.length) 0)))

/-- READ POINT STATE copies a point record with its residue or a line record, or refuses (R88, 13.6). -/
def Obligations.ReadPointStateCopiesTheRecord : Prop :=
  ∀ (p : Port) (kind index : Byte) (rest : List Byte) (s : State), s.ctrl.acc ≠ .booting →
    (∀ q : Fin 128, kind = 0 → index.toNat = q.val →
      let r := s.sources.points.get q
      exec (.readPointState ⟨p, kind :: index :: rest⟩) s = .next (s.copied p 2 rest.length
        ([byteOf (srcStateCode r.head.state), byteOf r.head.run]
          ++ toBE 3 r.counter.base ++ toBE 3 r.counter.sum ++ toBE 3 r.counter.debt ++ toBE 3 r.counter.lastInc
          ++ toBE 3 r.counter.booked ++ [r.head.quality.byte] ++ toBE 4 r.head.interval.toNat
          ++ toBE 2 (s.residues.get q)))) ∧
    (∀ l : Fin 12, kind = 1 → index.toNat = l.val →
      let r := s.sources.lines.get l
      exec (.readPointState ⟨p, kind :: index :: rest⟩) s = .next (s.copied p 2 rest.length
        ([byteOf (srcStateCode r.head.state), byteOf r.head.run, r.head.quality.byte] ++ toBE 4 r.head.interval.toNat
          ++ (toBE 4 r.gobs.base ++ toBE 4 r.gobs.sum ++ toBE 4 r.gobs.debt ++ toBE 4 r.gobs.lastInc
            ++ toBE 4 r.gobs.booked)
          ++ (toBE 4 r.packed.base ++ toBE 4 r.packed.sum ++ toBE 4 r.packed.debt ++ toBE 4 r.packed.lastInc
            ++ toBE 4 r.packed.booked)
          ++ toBE 2 r.gobMass))) ∧
    (kind = 0 → 127 < index.toNat →
      exec (.readPointState ⟨p, kind :: index :: rest⟩) s = .next (s.readRefusedRange p ⟨2, index.toNat, 0⟩ 2 rest.length)) ∧
    (kind = 1 → 11 < index.toNat →
      exec (.readPointState ⟨p, kind :: index :: rest⟩) s = .next (s.readRefusedRange p ⟨4, index.toNat, 0⟩ 2 rest.length)) ∧
    (1 < kind.toNat →
      exec (.readPointState ⟨p, kind :: index :: rest⟩) s = .next (s.readRefusedRange p ⟨0, kind.toNat, 1⟩ 2 rest.length))

/-- READ QUEUE copies the queue view or a record view, or refuses; where the queues' law holds a carrier's content is below
2^46 kJ (R112, 13.6). That the pending lag's byte is 0 while none is held (log entry 34), that pending held is 1 or 0 (log entry 44),
and that the furnace is judged before the selector (log entry 35), are the model's choices. -/
def Obligations.ReadQueueCopiesTheView : Prop :=
  (∀ s : State, s.queueLaw → ∀ f c, (queueContent (s.furnaces.get f).queue).get c < 2 ^ 46) ∧
  ∀ (p : Port) (furnace sel : Byte) (rest : List Byte) (s : State), s.ctrl.acc ≠ .booting →
    (∀ f : Fin 4, furnace.toNat = f.val →
      let x := s.furnaces.get f
      (sel = 0xFF →
        exec (.readQueue ⟨p, furnace :: sel :: rest⟩) s = .next (s.copied p 2 rest.length
          ([byteOf (furnaceStateCode x.state), flagByte (s.plant.active.furnaces.get f).enabled, byteOf x.lag,
            flagByte x.pendingLag.isSome, byteOf (x.pendingLag.getD 0), byteOf x.queue.length]
            ++ toBE 4 ((x.queue.head?.map fun r => r.interval.toNat).getD 0)
            ++ toBE 4 ((x.queue.getLast?.map fun r => r.interval.toNat).getD 0)
            ++ toBE 6 (queueContent x.queue).fuel ++ toBE 6 (queueContent x.queue).elec
            ++ toBE 6 (queueContent x.queue).oxy ++ toBE 6 (queueContent x.queue).aux
            ++ [(queueQuality x.queue).byte]))) ∧
      (∀ r, sel.toNat ≤ 63 → x.queue[sel.toNat]? = some r →
        exec (.readQueue ⟨p, furnace :: sel :: rest⟩) s = .next (s.copied p 2 rest.length
          (sel :: (toBE 4 r.interval.toNat ++ toBE 5 r.energy.fuel ++ toBE 5 r.energy.elec ++ toBE 5 r.energy.oxy
            ++ toBE 5 r.energy.aux ++ [r.quality.byte])))) ∧
      (sel ≠ 0xFF → 63 < sel.toNat ∨ x.queue.length ≤ sel.toNat →
        exec (.readQueue ⟨p, furnace :: sel :: rest⟩) s =
          .next (s.readRefusedRange p ⟨3, f.val, 2⟩ 2 rest.length))) ∧
    (3 < furnace.toNat →
      exec (.readQueue ⟨p, furnace :: sel :: rest⟩) s = .next (s.readRefusedRange p ⟨3, furnace.toNat, 1⟩ 2 rest.length))

/-- READ RESULT judges kind, index and view in that order, answers from the published copy, and shows an absent entry as
present 0 with every field 0 (R141). The bytes of every part in every view are those of 13.6, and a carrier view forms its SE at
the read, on the minimum the entry keeps (R142). That the index is judged before the view (log entry 37), both before EMPTY (log
entry 15), present as 1 (log entry 44), and link l in bit l of the links-used byte (log entry 43, DEDUCED), are the model's
choices. -/
def Obligations.ReadResultCopiesThePublishedTable : Prop :=
  (∀ (p : Port) (kind index view : Byte) (rest : List Byte) (s : State), s.ctrl.acc ≠ .booting →
    (5 < kind.toNat →
      exec (.readResult ⟨p, kind :: index :: view :: rest⟩) s =
        .next (s.readRefusedRange p ⟨0, kind.toNat, 1⟩ 3 rest.length)) ∧
    ∀ k, resultKindOfCode kind.toNat = some k →
      ((resultKindShape k).1 ≤ index.toNat →
        exec (.readResult ⟨p, kind :: index :: view :: rest⟩) s =
          .next (s.readRefusedRange p ⟨(resultKindShape k).2, index.toNat, 2⟩ 3 rest.length)) ∧
      (index.toNat < (resultKindShape k).1 →
        (viewOfByte view = none ∨ ∃ v half, viewOfByte view = some (v, half) ∧ resultViewAllowed k v half = false) →
        exec (.readResult ⟨p, kind :: index :: view :: rest⟩) s =
          .next (s.readRefusedRange p ⟨(resultKindShape k).2, index.toNat, 3⟩ 3 rest.length)) ∧
      ∀ v half, index.toNat < (resultKindShape k).1 → viewOfByte view = some (v, half) →
        resultViewAllowed k v half = true →
        (∀ t, s.published = some t →
          exec (.readResult ⟨p, kind :: index :: view :: rest⟩) s =
            .next (s.copied p 3 rest.length (resultPart t k index.toNat v))) ∧
        (s.published = none → k = .header →
          exec (.readResult ⟨p, kind :: index :: view :: rest⟩) s =
            .next (s.copied p 3 rest.length (List.replicate 8 0 ++ [128, 0, 0, 0, 0]))) ∧
        (s.published = none → k ≠ .header →
          exec (.readResult ⟨p, kind :: index :: view :: rest⟩) s =
            .next (s.readRefused p .refusedState 3 rest.length))) ∧
  ∀ (t : ResultTable) (v : View),
    (∀ i : Fin 128, t.points.get i = none →
      resultPart t .point i.val v = toBE 4 t.header.interval.toNat ++ List.replicate 17 0) ∧
    (∀ i : Fin 12, t.lines.get i = none →
      resultPart t .line i.val v = toBE 4 t.header.interval.toNat ++ List.replicate 55 0) ∧
    (∀ i : Fin 4, t.furnaces.get i = none →
      resultPart t .furnace i.val v = toBE 4 t.header.interval.toNat ++ List.replicate 59 0) ∧
    (∀ i : Fin 4, t.pools.get i = none →
      resultPart t .pool i.val v = toBE 4 t.header.interval.toNat ++ List.replicate 24 0) ∧
    let n := toBE 4 t.header.interval.toNat
    let amount (k : Kj) : Nat := match v with
      | .totals => k.fuel + k.elec + k.oxy + k.aux
      | .carrier c => k.get c
    let figure (stored : Nat) (k : Kj) (mass minKg : Nat) : Nat := match v with
      | .totals => stored
      | .carrier c => seOf (k.get c) mass minKg
    let quality (q : Quality) : Byte := BitVec.ofNat 8 (q.estimated.toNat + 2 * q.incomplete.toNat
      + 4 * q.implausible.toNat + 8 * q.manual.toNat + 16 * q.saturated.toNat)
    resultPart t .header 0 v = n ++ toBE 4 t.header.period.toNat
      ++ [byteOf ((if t.header.mark.isSome then 64 else 0) + causeCode t.header.mark),
        byteOf (∑ l : Fin 8, if t.header.linksUsed.get l then 2 ^ l.val else 0)]
      ++ toBE 2 (∑ l : Fin 12, if t.header.linesUsed.get l then 2 ^ l.val else 0)
      ++ [byteOf (t.header.findings.estimate.toNat + 2 * t.header.findings.pointLost.toNat
          + 4 * t.header.findings.implausible.toNat + 8 * t.header.findings.saturated.toNat)] ∧
    (∀ (i : Fin 128) (x : PointResult), t.points.get i = some x →
      resultPart t .point i.val v = n ++ [1] ++ toBE 3 x.count ++ [byteOf x.segment] ++ toBE 6 x.kj ++ toBE 2 x.residue
        ++ [byteOf (carrierCode x.carrier), byteOf (targetKindCode x.target), byteOf (targetIndex x.target),
          quality x.quality]) ∧
    (∀ (i : Fin 12) (x : LineResult), t.lines.get i = some x →
      resultPart t .line i.val v = n ++ [1] ++ [byteOf (lineStateCode x.state)] ++ toBE 3 x.gobs ++ toBE 3 x.packed
        ++ toBE 2 x.gobMass ++ toBE 5 x.grossMass ++ toBE 5 x.packedMass ++ toBE 7 (amount x.furnaceShare)
        ++ toBE 7 (amount x.direct) ++ toBE 7 (amount x.poolShare) ++ toBE 7 (amount x.total)
        ++ toBE 3 (figure x.seGross x.total x.grossMass x.minMass)
        ++ toBE 3 (figure x.sePack x.total x.packedMass x.minMass) ++ [quality x.quality]) ∧
    (∀ (i : Fin 4) (x : FurnaceResult), t.furnaces.get i = some x →
      resultPart t .furnace i.val v = n ++ [1] ++ [byteOf (furnaceStateCode x.state), byteOf x.lag, byteOf x.occupancy]
        ++ toBE 6 x.pull ++ toBE 7 (amount x.released) ++ toBE 7 (amount x.attributed) ++ toBE 7 (amount x.noPull)
        ++ toBE 7 (amount x.hold) ++ toBE 7 (amount x.heatup) ++ toBE 7 (amount x.metered)
        ++ toBE 3 (figure x.seMelt x.attributed x.pull x.minMass)
        ++ toBE 3 (figure x.seFired x.metered x.pull x.minMass) ++ [quality x.quality]) ∧
    (∀ (i : Fin 4) (x : PoolResult), t.pools.get i = some x →
      resultPart t .pool i.val v = n ++ [1] ++ [byteOf (basisCode x.basis)] ++ toBE 7 (amount x.metered)
        ++ toBE 7 (amount x.shared) ++ toBE 7 (amount x.unattributed) ++ [quality x.quality]) ∧
    let x := t.plant
    resultPart t .plant 0 v = n ++ toBE 7 (amount x.metered) ++ toBE 7 (amount x.monitor) ++ toBE 7 (amount x.unattributed)
      ++ toBE 6 x.grossMass ++ toBE 6 x.packedMass ++ toBE 3 (figure x.sePlant x.metered x.packedMass x.minMass)
      ++ [quality x.quality, quality x.monitorQuality]

/-- READ BANK RECORD judges role, kind, index and view in that order, and copies the record of the bank that holds the role
with that bank's number, state, period, last interval and count (R155, R158). The fields of every kind, view and half are those of
13.6: each SE is formed at the read on the minimum of the active map, and in-process now is the queue's content for the ACTIVE bank
and the stored one for the FROZEN bank (R149, R157, R186). With no marked completion due, a read between a completion and its swap is
a read in its turn (log entry 32, the model's); where one is due, CompletionPublishesAndBanks says what it sees. The saturation flag as
1 and 0 is the model's choice (log entry 44). -/
def Obligations.ReadBankRecordCopiesTheBank : Prop :=
  (∀ (r : Transfer) (s : State),
    (∀ i, s.ctrl.setWith .computing = some i → s.engine.phase = .totalled →
      (s.ctrl.sets.get i).mark = none ∨ s.working = none) →
    exec (.readBankRecord ⟨r, .beforeSwap⟩) s = exec (.readBankRecord ⟨r, .inTurn⟩) s) ∧
  (∀ (p : Port) (role kind index view : Byte) (rest : List Byte) (s : State), s.ctrl.acc ≠ .booting →
    (1 < role.toNat →
      exec (.readBankRecord ⟨⟨p, role :: kind :: index :: view :: rest⟩, .inTurn⟩) s =
        .next (s.readRefusedRange p ⟨0, role.toNat, 1⟩ 4 rest.length)) ∧
    (role.toNat ≤ 1 → 4 < kind.toNat →
      exec (.readBankRecord ⟨⟨p, role :: kind :: index :: view :: rest⟩, .inTurn⟩) s =
        .next (s.readRefusedRange p ⟨0, kind.toNat, 2⟩ 4 rest.length)) ∧
    ∀ k, role.toNat ≤ 1 → bankKindOfCode kind.toNat = some k →
      ((bankKindShape k).1 ≤ index.toNat →
        exec (.readBankRecord ⟨⟨p, role :: kind :: index :: view :: rest⟩, .inTurn⟩) s =
          .next (s.readRefusedRange p ⟨(bankKindShape k).2, index.toNat, 3⟩ 4 rest.length)) ∧
      (index.toNat < (bankKindShape k).1 →
        (viewOfByte view = none ∨ ∃ v half, viewOfByte view = some (v, half) ∧ bankViewAllowed k v half = false) →
        exec (.readBankRecord ⟨⟨p, role :: kind :: index :: view :: rest⟩, .inTurn⟩) s =
          .next (s.readRefusedRange p ⟨(bankKindShape k).2, index.toNat, 4⟩ 4 rest.length)) ∧
      ∀ v half, index.toNat < (bankKindShape k).1 → viewOfByte view = some (v, half) →
        bankViewAllowed k v half = true →
        (∀ i, (role = 0 ∧ i = s.activeIdx) ∨ (role = 1 ∧ s.frozenIdx = some i) →
          let b := s.banks.get i
          exec (.readBankRecord ⟨⟨p, role :: kind :: index :: view :: rest⟩, .inTurn⟩) s =
            .next (s.copied p 4 rest.length
              ([byteOf i.val, byteOf (bankStateCode b.state)] ++ toBE 4 b.period.toNat ++ toBE 4 b.last.toNat
                ++ toBE 4 b.count.toNat ++ bankPart s b k index.toNat v half))) ∧
        (role = 1 → s.frozenIdx = none →
          exec (.readBankRecord ⟨⟨p, role :: kind :: index :: view :: rest⟩, .inTurn⟩) s =
            .next (s.readRefused p .refusedState 4 rest.length))) ∧
  ∀ (s : State) (b : Bank) (v : View),
    let m := s.plant.active
    let amount (k : Kj) : Nat := match v with
      | .totals => k.fuel + k.elec + k.oxy + k.aux
      | .carrier c => k.get c
    bankPart s b .header 0 v false = toBE 4 b.first.toNat ++ [byteOf (causeCode b.cause), if b.saturated then 1 else 0] ∧
    (∀ f : Fin 4,
      let x := b.furnaces.get f
      let minKg := (m.furnaces.get f).minMass
      bankPart s b .furnace f.val v false = toBE 7 (amount x.metered) ++ toBE 7 (amount x.attributed)
        ++ toBE 7 (amount x.noPull) ++ toBE 7 (amount x.hold) ++ toBE 7 (amount x.heatup) ++ toBE 7 (amount x.atStart)
        ++ toBE 7 (amount (if b.state = .active then queueContent (s.furnaces.get f).queue else x.nowFrozen)) ∧
      bankPart s b .furnace f.val v true = toBE 6 x.pull ++ toBE 4 x.meltCount.toNat ++ toBE 4 x.holdCount.toNat
        ++ toBE 4 x.heatupCount.toNat ++ toBE 4 x.estimatedCount.toNat ++ toBE 4 x.incompleteCount.toNat
        ++ toBE 3 (seOf (amount x.attributed) x.pull minKg) ++ toBE 3 (seOf (amount x.metered) x.pull minKg)) ∧
    (∀ l : Fin 12,
      let x := b.lines.get l
      let minKg := (m.lines.get l).minMass
      let total := amount x.furnaceShare + amount x.direct + amount x.poolShare
      bankPart s b .line l.val v false = toBE 7 (amount x.furnaceShare) ++ toBE 7 (amount x.direct)
        ++ toBE 7 (amount x.poolShare) ++ toBE 7 total ++ toBE 3 (seOf total x.grossMass minKg)
        ++ toBE 3 (seOf total x.packedMass minKg) ∧
      bankPart s b .line l.val v true = toBE 6 x.grossMass ++ toBE 6 x.packedMass ++ toBE 4 x.runningCount.toNat
        ++ toBE 4 x.jobChangeCount.toNat ++ toBE 4 x.stoppedCount.toNat ++ toBE 4 x.offCount.toNat
        ++ toBE 4 x.estimatedCount.toNat ++ toBE 4 x.incompleteCount.toNat ++ toBE 4 x.implausibleCount.toNat
        ++ toBE 4 x.manualCount.toNat ++ toBE 4 x.saturatedCount.toNat) ∧
    (∀ q : Fin 4,
      let x := b.pools.get q
      bankPart s b .pool q.val v false =
        toBE 7 (amount x.metered) ++ toBE 7 (amount x.shared) ++ toBE 7 (amount x.unattributed)) ∧
    let x := b.plant
    bankPart s b .plant 0 v false = toBE 7 (amount x.metered) ++ toBE 7 (amount x.monitor) ++ toBE 7 (amount x.unattributed)
      ++ toBE 6 x.grossMass ++ toBE 6 x.packedMass ++ toBE 3 (seOf (amount x.metered) x.packedMass m.global.plantMin)

/-- READ STORE copies the status view or a block view, or refuses (R183, 13.6). That a busy store refuses before the selector is
judged is the model's choice (log entry 42). -/
def Obligations.ReadStoreCopiesTheImage : Prop :=
  ∀ (p : Port) (sel : Byte) (rest : List Byte) (wpN : Bool) (s : State), s.ctrl.acc ≠ .booting →
    (s.store.busy = true →
      exec (.readStore ⟨p, sel :: rest⟩ wpN) s = .next (s.readRefused p .refusedBusy 1 rest.length)) ∧
    (s.store.busy = false → sel = 0xFF →
      exec (.readStore ⟨p, sel :: rest⟩ wpN) s = .next (s.copied p 1 rest.length
        ([byteOf (s.store.lock.toNat + 2 * s.store.freeze.toNat + 4 * wpN.toNat), byteOf (lastOpCode s.store.lastOp),
          byteOf (outcomeCode s.store.outcome), byteOf s.store.failedStep]
          ++ (List.range 12).map fun k => Image.read s.store.image k))) ∧
    (s.store.busy = false → sel.toNat ≤ 127 →
      exec (.readStore ⟨p, sel :: rest⟩ wpN) s = .next (s.copied p 1 rest.length
        (sel :: (List.range 32).map fun k => Image.read s.store.image (sel.toNat * 32 + k)))) ∧
    (s.store.busy = false → sel ≠ 0xFF → 127 < sel.toNat →
      exec (.readStore ⟨p, sel :: rest⟩ wpN) s = .next (s.readRefusedRange p ⟨0, sel.toNat, 1⟩ 1 rest.length))

/-- Every copy of every read command fits the 64 bytes of the snapshot buffer (R166). -/
def Obligations.EveryCopyFitsTheBuffer : Prop :=
  ∀ s : State,
    (∀ p, (idCopy p).length ≤ 64 ∧ (noticesCopy (s.ports.get p)).length ≤ 64) ∧
    (∀ l c, linkStatusCopy s l = .ok c → c.length ≤ 64) ∧
    (∀ t i c, entryCopy s.plant.staged t i = .ok c → c.length ≤ 64) ∧
    (∀ t i c, entryCopy s.plant.active t i = .ok c → c.length ≤ 64) ∧
    (∀ k i c, pointStateCopy s k i = .ok c → c.length ≤ 64) ∧
    (∀ f x c, queueCopy s f x = .ok c → c.length ≤ 64) ∧
    (∀ k i v c, resultCopy s k i v = .ok c → c.length ≤ 64) ∧
    (∀ r k i v c, bankCopy s r k i v = .ok c → c.length ≤ 64) ∧
    ∀ w x c, storeCopy s w x = .ok c → c.length ≤ 64

/-! ## Furnaces and lines -/

/-- SET FURNACE STATE and SET LAG from Port M: refused for a bad argument with its detail, otherwise taken; a lag is active at
once in UNCONFIGURED and READY and pending in RUNNING and STOPPING (R103, R109). That the furnace is judged before the second
argument is the model's choice (log entry 35). -/
def Obligations.FurnaceCommandsFromPortM : Prop :=
  ∀ (furnace v : Byte) (s : State), s.ctrl.acc ≠ .booting →
    (3 < furnace.toNat →
      exec (.setFurnaceState ⟨.m, [furnace, v]⟩) s =
        .next (s.answeredRange .m ⟨3, furnace.toNat, 1⟩ (s.writeSent .m 2)) ∧
      exec (.setLag ⟨.m, [furnace, v]⟩) s =
        .next (s.answeredRange .m ⟨3, furnace.toNat, 1⟩ (s.writeSent .m 2))) ∧
    ∀ f : Fin 4, furnace.toNat = f.val →
      (2 < v.toNat →
        exec (.setFurnaceState ⟨.m, [furnace, v]⟩) s =
          .next (s.answeredRange .m ⟨3, f.val, 2⟩ (s.writeSent .m 2))) ∧
      (∀ st, v.toNat = furnaceStateCode st →
        exec (.setFurnaceState ⟨.m, [furnace, v]⟩) s =
          .next ((s.putFurnace f { s.furnaces.get f with state := st }).answered .m .done (s.writeSent .m 2))) ∧
      (63 < v.toNat →
        exec (.setLag ⟨.m, [furnace, v]⟩) s = .next (s.answeredRange .m ⟨3, f.val, 2⟩ (s.writeSent .m 2))) ∧
      (v.toNat ≤ 63 → s.ctrl.acc = .unconfigured ∨ s.ctrl.acc = .ready →
        exec (.setLag ⟨.m, [furnace, v]⟩) s =
          .next ((s.putFurnace f { s.furnaces.get f with lag := v.toNat, pendingLag := none }).answered .m .done
            (s.writeSent .m 2))) ∧
      (v.toNat ≤ 63 → s.ctrl.acc = .running ∨ s.ctrl.acc = .stopping →
        exec (.setLag ⟨.m, [furnace, v]⟩) s =
          .next ((s.putFurnace f { s.furnaces.get f with pendingLag := some v.toNat }).answered .m .accepted
            (s.writeSent .m 2)))

/-- LINE TALLY from Port F, in the order of R61: the line, the gob mass, the state, then the tag; a taken tally replaces any in
its line's slot and closure is judged. -/
def Obligations.LineTallyIsJudgedAndPlaced : Prop :=
  ∀ (line : Byte) (tag : BitVec 16) (gobs packed : BitVec 32) (mass : BitVec 16) (s : State), s.ctrl.acc ≠ .booting →
    let t : Transfer :=
      ⟨.f, line :: (toBE 2 tag.toNat ++ toBE 4 gobs.toNat ++ toBE 4 packed.toNat ++ toBE 2 mass.toNat)⟩
    let sent := s.writeSent .f 13
    (11 < line.toNat → exec (.lineTally t) s = .next (s.answeredRange .f ⟨4, line.toNat, 1⟩ sent)) ∧
    ∀ l : Fin 12, line.toNat = l.val →
      (mass = 0 → exec (.lineTally t) s = .next (s.answeredRange .f ⟨4, l.val, 5⟩ sent)) ∧
      (mass ≠ 0 →
        (s.plant.active.lines.get l).enabled = false ∨ (s.ctrl.acc ≠ .running ∧ s.ctrl.acc ≠ .stopping) →
        exec (.lineTally t) s = .next (s.answered .f .refusedState sent)) ∧
      (mass ≠ 0 → (s.plant.active.lines.get l).enabled = true → s.ctrl.acc = .running ∨ s.ctrl.acc = .stopping →
        (s.judgeTag tag = .late → exec (.lineTally t) s = .next (s.answered .f .refusedLate sent)) ∧
        (s.judgeTag tag = .ahead → exec (.lineTally t) s = .next (s.answered .f .refusedAhead sent)) ∧
        ∀ i, s.judgeTag tag = .taken i →
          let w := s.ctrl.sets.get i
          exec (.lineTally t) s =
            .next (((s.putSet i { w with lines := w.lines.set l (some ⟨tag, gobs, packed, mass⟩) }).judgeClosure
              false).answered .f .done sent))

/-- SET LINE STATE from Port F: refused for a bad argument with its detail, otherwise the line's state is the one given and
closure is judged (R62). That the line is judged before the state is the model's choice (log entry 35). -/
def Obligations.SetLineStateReachesTheExpectedSet : Prop :=
  ∀ (line v : Byte) (s : State), s.ctrl.acc ≠ .booting →
    (11 < line.toNat →
      exec (.setLineState ⟨.f, [line, v]⟩) s = .next (s.answeredRange .f ⟨4, line.toNat, 1⟩ (s.writeSent .f 2))) ∧
    ∀ l : Fin 12, line.toNat = l.val →
      (3 < v.toNat →
        exec (.setLineState ⟨.f, [line, v]⟩) s = .next (s.answeredRange .f ⟨4, l.val, 2⟩ (s.writeSent .f 2))) ∧
      ∀ st, v.toNat = lineStateCode st →
        exec (.setLineState ⟨.f, [line, v]⟩) s =
          .next ((({ s with ctrl := { s.ctrl with lineStates := s.ctrl.lineStates.set l st } } : State).judgeClosure
            false).answered .f .done (s.writeSent .f 2))

/-! ## The plant map -/

/-- WRITE STAGED ENTRY and DISCARD STAGED from Port E (R9, R11). -/
def Obligations.StagedMapIsWrittenAndDiscarded : Prop :=
  ∀ (table index : Byte) (image : List Byte) (s : State), image.length = 32 → s.ctrl.acc ≠ .booting →
    let t : Transfer := ⟨.e, table :: index :: image⟩
    let sent := s.writeSent .e 34
    (s.plant.commitPending = true →
      exec (.writeStagedEntry t) s = .next (s.answered .e .refusedBusy sent) ∧
      exec (.discardStaged ⟨.e, []⟩) s = .next (s.answered .e .refusedBusy (s.writeSent .e 0))) ∧
    (s.plant.commitPending = false →
      (6 < table.toNat → exec (.writeStagedEntry t) s = .next (s.answeredRange .e ⟨0, table.toNat, 0⟩ sent)) ∧
      (∀ n, tableEntries table.toNat = some n → n ≤ index.toNat →
        exec (.writeStagedEntry t) s = .next (s.answeredRange .e ⟨table.toNat, index.toNat, 0⟩ sent)) ∧
      (∀ d, writeEntry s.plant.staged table.toNat index.toNat image = .error d →
        exec (.writeStagedEntry t) s = .next (s.answeredRange .e d sent)) ∧
      (∀ m, writeEntry s.plant.staged table.toNat index.toNat image = .ok m →
        exec (.writeStagedEntry t) s =
          .next (({ s with plant := { s.plant with staged := m } } : State).answered .e .done sent)) ∧
      exec (.discardStaged ⟨.e, []⟩) s =
        .next (({ s with plant := { s.plant with staged := s.plant.active } } : State).answered .e .done
          (s.writeSent .e 0)))

/-- A staged entry takes the image it is given: it reads back as the image's field bytes, the padding being dropped, and every
other entry reads as before (R9, R185, 13.5). An image is taken exactly when no field offends the ranges and codes of R2 to R8, and
is refused with the number of the first that does (R9 step 3). -/
def Obligations.EntryImagesReadBackAsWritten : Prop :=
  (∀ (m m' : PlantMap) (table index : Nat) (image : List Byte), image.length = 32 →
    writeEntry m table index image = .ok m' →
    entryImage m' table index = some (image.take (match table with
      | 0 => 7 | 1 => 3 | 2 => 12 | 3 => 3 | 4 => 10 | 5 => 2 | _ => 32)) ∧
    ∀ t i, ¬ (t = table ∧ i = index) → entryImage m' t i = entryImage m t i) ∧
  ∀ (m : PlantMap) (table index n : Nat) (image : List Byte), image.length = 32 → tableEntries table = some n → index < n →
    let one (k : Nat) : Nat := (image.getD k 0).toNat
    let two (k : Nat) : Nat := one k * 256 + one (k + 1)
    let three (k : Nat) : Nat := two k * 256 + one (k + 2)
    let offends : List (Nat × Bool) := match table with
      | 0 => [(1, decide (15 < one 0)), (2, decide (one 1 = 0)), (3, decide (15 < one 2)), (4, decide (15 < one 3)),
          (5, decide (1 < one 4)), (6, decide (two 5 = 0))]
      | 1 => [(1, decide (2 < one 0)), (2, decide (31 < one 1)), (3, decide (one 2 = 0 ∨ 16 < one 2))]
      | 2 => [(1, decide (1 < one 0)), (2, decide (3 < one 1)), (3, decide (3 < one 2)),
          (4, decide ((match one 2 with | 0 => 3 | 1 => 11 | 2 => 3 | _ => 0) < one 3)),
          (6, decide (7 < one 8 ∧ one 8 ≠ 15)), (7, decide (three 9 = 0 ∨ 1048575 < three 9))]
      | 3 => [(1, decide (1 < one 0)), (2, decide (two 1 = 0))]
      | 4 => [(1, decide (1 < one 0)), (2, decide (3 < one 1)), (3, decide (two 2 = 0)), (4, decide (two 4 = 0))]
      | 5 => [(1, decide (1 < one 0)), (2, decide (2 < one 1))]
      | _ => []
    let bad := (offends.filter fun x => x.2).map fun x => x.1
    (bad = [] → ∃ m', writeEntry m table index image = .ok m') ∧
    ∀ k rest, bad = k :: rest → writeEntry m table index image = .error ⟨table, index, k⟩

/-- COMMIT from Port E: absorbed while commit-pending, refused during a LOAD, refused for a failed check with its detail, else
applied at once in UNCONFIGURED and READY and planned in RUNNING and STOPPING. A map passes the four checks exactly when each
enabled point is on a slot of its link and targets an enabled entry, each enabled line is on an enabled furnace, and some
furnace is enabled. Otherwise the detail is that of the first check that fails: the lowest-numbered point that fails check 1 or
2, with the number of the check; with no such point, the lowest-numbered line that fails check 3; with neither, FURNACE, 0, 4
(R12, R13). -/
def Obligations.CommitIsCheckedAndTaken : Prop :=
  (∀ s : State, s.ctrl.acc ≠ .booting →
    let sent := s.writeSent .e 0
    (s.plant.commitPending = true → exec (.commit ⟨.e, []⟩) s = .next (s.answered .e .done sent)) ∧
    (s.plant.commitPending = false → s.store.op = .load →
      exec (.commit ⟨.e, []⟩) s = .next (s.answered .e .refusedBusy sent)) ∧
    (s.plant.commitPending = false → s.store.op ≠ .load →
      (∀ d, mapCheck s.plant.staged = some d → exec (.commit ⟨.e, []⟩) s = .next (s.answeredRange .e d sent)) ∧
      (mapCheck s.plant.staged = none →
        (s.ctrl.acc = .unconfigured →
          exec (.commit ⟨.e, []⟩) s =
            .next (((s.applyMap.setAcc .ready).judgeClosure false).answered .e .done sent)) ∧
        (s.ctrl.acc = .ready →
          exec (.commit ⟨.e, []⟩) s = .next ((s.applyMap.judgeClosure false).answered .e .done sent)) ∧
        (s.ctrl.acc = .running ∨ s.ctrl.acc = .stopping →
          exec (.commit ⟨.e, []⟩) s =
            .next (({ s with plant := { s.plant with commitPending := true } } : State).answered .e .accepted sent))))) ∧
  (∀ m : PlantMap, mapCheck m = none ↔
    (∀ p : Fin 128, (m.points.get p).enabled = true →
      p.val % 16 < (m.links.get ⟨p.val / 16, by omega⟩).pointCount ∧
      match (m.points.get p).target with
      | .furnace f => (m.furnaces.get f).enabled = true
      | .line l => (m.lines.get l).enabled = true
      | .pool q => (m.pools.get q).enabled = true
      | .monitor => True) ∧
    (∀ l : Fin 12, (m.lines.get l).enabled = true → (m.furnaces.get (m.lines.get l).furnace).enabled = true) ∧
    ∃ f : Fin 4, (m.furnaces.get f).enabled = true) ∧
  (∀ (m : PlantMap) (d : Detail), mapCheck m = some d → d.table = 2 →
    ∃ p : Fin 128, d.value = p.val ∧ pointCheck m p = some d ∧ ∀ q : Fin 128, pointCheck m q ≠ none → p ≤ q) ∧
  ∀ m : PlantMap,
    let offSlot (p : Fin 128) : Prop := (m.points.get p).enabled = true ∧
      (m.links.get ⟨p.val / 16, by omega⟩).pointCount ≤ p.val % 16
    let offTarget (p : Fin 128) : Prop := (m.points.get p).enabled = true ∧
      match (m.points.get p).target with
      | .furnace f => (m.furnaces.get f).enabled = false
      | .line l => (m.lines.get l).enabled = false
      | .pool q => (m.pools.get q).enabled = false
      | .monitor => False
    let offFurnace (l : Fin 12) : Prop :=
      (m.lines.get l).enabled = true ∧ (m.furnaces.get (m.lines.get l).furnace).enabled = false
    (∀ p, (∀ q, q < p → ¬ offSlot q ∧ ¬ offTarget q) →
      (offSlot p → mapCheck m = some ⟨2, p.val, 1⟩) ∧
      (¬ offSlot p → offTarget p → mapCheck m = some ⟨2, p.val, 2⟩)) ∧
    ((∀ p, ¬ offSlot p ∧ ¬ offTarget p) →
      (∀ l, (∀ k, k < l → ¬ offFurnace k) → offFurnace l → mapCheck m = some ⟨4, l.val, 3⟩) ∧
      ((∀ l, ¬ offFurnace l) → (∀ f, (m.furnaces.get f).enabled = false) → mapCheck m = some ⟨3, 0, 4⟩))

/-- The effects of an apply on running state (R14 to R17, R32, R42, R87, R151), in a state whose ACTIVE bank lies within its 48 bits
(bankLaw): beside what each line says, the ports take COMMITTED, and SATURATED where a move saturates, and the slot sets lose the
deliveries of links that enter quarantine from the open window. -/
def Obligations.ApplyChangesRunningState : Prop :=
  ∀ s : State, s.activeBank.above = false →
    let old := s.plant.active
    let new := s.plant.staged
    let t := s.applyMap
    let overflow : Prop := ∃ f c, (old.furnaces.get f).enabled = true ∧ (new.furnaces.get f).enabled = false ∧
      281474976710655 < (s.activeBank.furnaces.get f).noPull.get c + (queueContent (s.furnaces.get f).queue).get c
    t.plant = ⟨new, new, false⟩ ∧
    (∀ q, (t.ports.get q).has .committed = true) ∧
    (∀ p, (old.points.get p).enabled ≠ (new.points.get p).enabled →
      t.sources.points.get p =
        ⟨⟨.unset, 0, ⟨false, false, false, false, false⟩, (s.sources.points.get p).head.interval⟩, ⟨0, 0, 0, 0, 0⟩⟩ ∧
      t.residues.get p = 0) ∧
    (∀ p, (old.points.get p).enabled = (new.points.get p).enabled →
      t.sources.points.get p = s.sources.points.get p ∧ t.residues.get p = s.residues.get p) ∧
    (∀ l, (old.lines.get l).enabled ≠ (new.lines.get l).enabled →
      t.sources.lines.get l =
        ⟨⟨.unset, 0, ⟨false, false, false, false, false⟩, (s.sources.lines.get l).head.interval⟩, ⟨0, 0, 0, 0, 0⟩,
          ⟨0, 0, 0, 0, 0⟩, (s.sources.lines.get l).gobMass⟩) ∧
    (∀ l, (old.lines.get l).enabled = (new.lines.get l).enabled → t.sources.lines.get l = s.sources.lines.get l) ∧
    (∀ f, (old.furnaces.get f).enabled = true → (new.furnaces.get f).enabled = false →
      t.furnaces.get f = { s.furnaces.get f with queue := [] } ∧
      t.activeBank.furnaces.get f =
        { s.activeBank.furnaces.get f with noPull := (t.activeBank.furnaces.get f).noPull } ∧
      ∀ c, (t.activeBank.furnaces.get f).noPull.get c =
        min ((s.activeBank.furnaces.get f).noPull.get c + (queueContent (s.furnaces.get f).queue).get c) 281474976710655) ∧
    (∀ f, ¬ ((old.furnaces.get f).enabled = true ∧ (new.furnaces.get f).enabled = false) →
      t.furnaces.get f = s.furnaces.get f ∧ t.activeBank.furnaces.get f = s.activeBank.furnaces.get f) ∧
    t.activeIdx = s.activeIdx ∧ t.banks.get (other s.activeIdx) = s.banks.get (other s.activeIdx) ∧
    t.activeBank = { s.activeBank with saturated := t.activeBank.saturated, furnaces := t.activeBank.furnaces } ∧
    (t.activeBank.saturated = true ↔ s.activeBank.saturated = true ∨ overflow) ∧
    (overflow → ∀ q, t.ports.get q = { s.ports.get q with
      notices := (s.ports.get q).notices ||| (BitVec.twoPow 16 6 ||| BitVec.twoPow 16 9) }) ∧
    (¬ overflow → ∀ q, t.ports.get q = { s.ports.get q with
      notices := (s.ports.get q).notices ||| BitVec.twoPow 16 9 }) ∧
    (∀ l, (old.links.get l).mode ≠ (new.links.get l).mode →
      (t.links.get l).rx = { (s.links.get l).rx with decoder := .hunt, strayRun := false, armed := false }) ∧
    (∀ i l,
      (s.ctrl.setWith .opened = some i ∧ (s.links.get l).quarantined = false ∧
          covered (s.links.get l).flags new.global.quarantineMask = true →
        (t.ctrl.sets.get i).links.get l = none) ∧
      (¬ (s.ctrl.setWith .opened = some i ∧ (s.links.get l).quarantined = false ∧
          covered (s.links.get l).flags new.global.quarantineMask = true) →
        (t.ctrl.sets.get i).links.get l = (s.ctrl.sets.get i).links.get l)) ∧
    (∀ i, (t.ctrl.sets.get i).status = (s.ctrl.sets.get i).status ∧
      (t.ctrl.sets.get i).interval = (s.ctrl.sets.get i).interval ∧
      (t.ctrl.sets.get i).lines = (s.ctrl.sets.get i).lines ∧ (t.ctrl.sets.get i).mark = (s.ctrl.sets.get i).mark) ∧
    (∀ l, (old.links.get l).mode = (new.links.get l).mode → (t.links.get l).rx = (s.links.get l).rx) ∧
    (∀ l, (t.links.get l).counts = (s.links.get l).counts ∧ (t.links.get l).flags = (s.links.get l).flags ∧
      (t.links.get l).quarantined = covered (s.links.get l).flags new.global.quarantineMask) ∧
    t.ctrl = { s.ctrl with sets := t.ctrl.sets } ∧ t.engine = s.engine ∧ t.working = s.working ∧
    t.published = s.published ∧ t.store = s.store

/-! ## Accounting -/

/-- START ACCOUNTING and CLOSE PERIOD from Port E (R51, R64), with what every record set to UNSET holds (R87). -/
def Obligations.StartAndClosePeriod : Prop :=
  ∀ (n : BitVec 32) (s : State), s.ctrl.acc ≠ .booting →
    (s.ctrl.acc = .ready →
      exec (.startAccounting ⟨.e, toBE 4 n.toNat⟩) s =
        .next (({ s with
            ctrl := { s.ctrl with acc := .running, current := n, lastClosed := n - 1 }
            sources := s.sources.allUnset } : State).answered .e .done (s.writeSent .e 4)) ∧
      (∀ p, s.sources.allUnset.points.get p =
        ⟨⟨.unset, 0, ⟨false, false, false, false, false⟩, (s.sources.points.get p).head.interval⟩, ⟨0, 0, 0, 0, 0⟩⟩) ∧
      ∀ l, s.sources.allUnset.lines.get l =
        ⟨⟨.unset, 0, ⟨false, false, false, false, false⟩, (s.sources.lines.get l).head.interval⟩, ⟨0, 0, 0, 0, 0⟩,
          ⟨0, 0, 0, 0, 0⟩, (s.sources.lines.get l).gobMass⟩) ∧
    (s.ctrl.acc ≠ .ready →
      exec (.startAccounting ⟨.e, toBE 4 n.toNat⟩) s = .next (s.answered .e .refusedState (s.writeSent .e 4))) ∧
    (s.ctrl.acc = .running →
      exec (.closePeriod ⟨.e, []⟩) s =
        .next (({ s with ctrl := { s.ctrl with closeLatch := true } } : State).answered .e .done (s.writeSent .e 0))) ∧
    (s.ctrl.acc ≠ .running →
      exec (.closePeriod ⟨.e, []⟩) s = .next (s.answered .e .refusedState (s.writeSent .e 0)))

/-- STOP ACCOUNTING from Port E (R65): the latest interval not yet computed is marked, OPEN before WAITING before COMPUTING, and
keeps a mark it has; an open window closes by STOP; with no interval to mark a swap is made if the ACTIVE bank holds an
interval, and the state is READY at once. What the close leaves is said by OpenWindowClosesWhenAllAreIn. That a bank whose count is 0 holds none, also after a wrap, is the model's choice (log entry
39). -/
def Obligations.StopMarksTheLatestInterval : Prop :=
  ∀ s : State, s.ctrl.acc ≠ .booting →
    let sent := s.writeSent .e 0
    let marked (i : Fin 2) : State :=
      { s with ctrl := { s.ctrl with
          acc := .stopping, closeLatch := false
          sets := s.ctrl.sets.set i
            { s.ctrl.sets.get i with mark := some ((s.ctrl.sets.get i).mark.getD .stop) } } }
    (s.ctrl.acc ≠ .running → exec (.stopAccounting ⟨.e, []⟩) s = .next (s.answered .e .refusedState sent)) ∧
    (s.ctrl.acc = .running →
      (∀ i, s.ctrl.setWith .opened = some i →
        exec (.stopAccounting ⟨.e, []⟩) s = .next (((marked i).closeWindow false i).answered .e .done sent)) ∧
      (∀ i, s.ctrl.setWith .opened = none → s.ctrl.setWith .waiting = some i →
        exec (.stopAccounting ⟨.e, []⟩) s = .next ((marked i).answered .e .done sent)) ∧
      (∀ i, s.ctrl.setWith .opened = none → s.ctrl.setWith .waiting = none → s.ctrl.setWith .computing = some i →
        exec (.stopAccounting ⟨.e, []⟩) s = .next ((marked i).answered .e .done sent)) ∧
      (s.ctrl.setWith .opened = none → s.ctrl.setWith .waiting = none → s.ctrl.setWith .computing = none →
        let s0 := s.setLatch false
        let s1 := if s.activeBank.count = 0 then s0 else s0.swap .stop
        let s2 := ((s1.setAcc .ready).notify .stopped).applyPendingLags
        exec (.stopAccounting ⟨.e, []⟩) s =
          .next ((if s.plant.commitPending then s2.applyMap else s2).answered .e .done sent)))

/-- ACCOUNTING RESET from Port E returns accounting to its starting point and keeps the rest (R67, R129, R159). The empty
content of a FREE set and of the idle engine are the model's (log entries 12 and 27). Every record set to UNSET keeps its last
reconciled interval, and a line its gob mass (R87). -/
def Obligations.AccountingResetKeepsWhatTheSpecKeeps : Prop :=
  ∀ s : State, s.ctrl.acc ≠ .booting →
    exec (.accountingReset ⟨.e, []⟩) s =
      .next ((({ s with
          plant := { s.plant with commitPending := false }
          ctrl := { s.ctrl with
            acc := if s.ctrl.acc = .unconfigured then AccState.unconfigured else AccState.ready
            sets := .const 2 .free
            closeLatch := false }
          sources := s.sources.allUnset
          residues := .const 128 0
          furnaces := s.furnaces.mapIdx fun _ f => { f with queue := [] }
          engine := .idle
          working := none
          published := none
          banks := ⟨[.cleared .active 1, .cleared .empty 0], rfl⟩ } : State).notify .accReset).answered .e .done
        (s.writeSent .e 0)) ∧
    (∀ p, s.sources.allUnset.points.get p =
      ⟨⟨.unset, 0, ⟨false, false, false, false, false⟩, (s.sources.points.get p).head.interval⟩, ⟨0, 0, 0, 0, 0⟩⟩) ∧
    ∀ l, s.sources.allUnset.lines.get l =
      ⟨⟨.unset, 0, ⟨false, false, false, false, false⟩, (s.sources.lines.get l).head.interval⟩, ⟨0, 0, 0, 0, 0⟩,
        ⟨0, 0, 0, 0, 0⟩, (s.sources.lines.get l).gobMass⟩

/-- IMARK: ignored outside RUNNING (R54). With the engine busy it is refused: OVERRUN, MARK_LOST where PMARK is high, nothing
else (R53). With the engine idle it is accepted: an open window closes by deadline, the window of the interval ended opens in
a FREE set with the mark of R63, the interval number rises, the latch is cleared, and the new window's closure is judged
(R52). The FREE set taken is the lowest-numbered (log entry 11), and the computation that closes window n - 1 starts
before window n opens (log entry 13): the model's choices. What the close leaves is said by OpenWindowClosesWhenAllAreIn. -/
def Obligations.ImarkIsAcceptedRefusedOrIgnored : Prop :=
  ∀ (pmark : Bool) (s : State),
    (s.ctrl.acc ≠ .running → exec (.imark pmark) s = .next s) ∧
    (s.ctrl.acc = .running → s.ctrl.setWith .computing ≠ none →
      exec (.imark pmark) s = .next (if pmark then (s.notify .overrun).notify .markLost else s.notify .overrun)) ∧
    (s.ctrl.acc = .running → s.ctrl.setWith .computing = none →
      let mark : Option CloseCause :=
        if pmark then some .mark else if s.ctrl.closeLatch then some .command else none
      let opening (j : Fin 2) (s1 : State) : State :=
        { s1 with ctrl := { s1.ctrl with
            current := s.ctrl.current + 1, closeLatch := false
            sets := s1.ctrl.sets.set j ⟨.opened, s.ctrl.current, .const 8 none, .const 12 none, mark⟩ } }
      (∀ j, s.ctrl.setWith .opened = none → s.ctrl.setWith .free = some j →
        exec (.imark pmark) s = .next ((opening j s).judgeClosure false)) ∧
      ∀ i j, s.ctrl.setWith .opened = some i → s.ctrl.setWith .free = some j →
        exec (.imark pmark) s = .next ((opening j (s.closeWindow false i)).judgeClosure false))

/-- A tag is judged against the open window, or with none open against the last closed interval, by the distance modulo 65,536
(R59). In RUNNING and STOPPING a delivery that is taken replaces what its link's slot of the open window holds, and a late or ahead
one is dropped with one TIMING event; in every other state a delivery is dropped without judgement (R60). -/
def Obligations.TagsAreJudgedByTheirDistance : Prop :=
  (∀ (tag : BitVec 16) (s : State) (i : Fin 2), s.ctrl.setWith .opened = some i →
    let d := ((s.ctrl.sets.get i).interval.toNat % 65536 + 65536 - tag.toNat) % 65536
    (d = 0 → s.judgeTag tag = .taken i) ∧
    (1 ≤ d → d ≤ 32767 → s.judgeTag tag = .late) ∧
    (32768 ≤ d → s.judgeTag tag = .ahead)) ∧
  (∀ (tag : BitVec 16) (s : State), s.ctrl.setWith .opened = none →
    let d := (s.ctrl.lastClosed.toNat % 65536 + 65536 - tag.toNat) % 65536
    (d ≤ 32767 → s.judgeTag tag = .late) ∧ (32768 ≤ d → s.judgeTag tag = .ahead)) ∧
  (∀ (l : Fin 8) (d : Delivery) (s : State), s.ctrl.acc ≠ .running → s.ctrl.acc ≠ .stopping → s.deliver l d = s) ∧
  (∀ (l : Fin 8) (d : Delivery) (s : State), s.ctrl.acc = .running ∨ s.ctrl.acc = .stopping →
    (∀ i, s.judgeTag d.tag = .taken i →
      s.deliver l d = { s with ctrl := { s.ctrl with
        sets := s.ctrl.sets.set i
          { s.ctrl.sets.get i with links := (s.ctrl.sets.get i).links.set l (some d) } } }) ∧
    (s.judgeTag d.tag = .late ∨ s.judgeTag d.tag = .ahead → s.deliver l d = s.errorEvent l .timing)) ∧
  ∀ (tag : BitVec 16) (s : State), SlotLaw s → s.ctrl.acc = .stopping → s.judgeTag tag = .late ∨ s.judgeTag tag = .ahead

/-- Closure (R55 to R58, R126): the open window closes all-in exactly when every expected link and line has delivered. Every
close, all-in, by deadline (R52) or by STOP (R65), leaves the window's number as the last closed one and keeps its deliveries and its
mark; with the engine busy the set waits; with it idle its computation starts, with the states of that moment sampled, the
accumulators and the working copy cleared, a due commit applied with its effects on running state (R13 to R17), and the pending lags
applied where the computation begins a period. What an apply does in full is ApplyChangesRunningState's. That a bank whose count is 0
holds no interval, also after a wrap (log entry 39), and what a cleared working copy holds in the fields of later stages (log entry
40) and an idle engine in its samples (log entry 26), are the model's choices. -/
def Obligations.OpenWindowClosesWhenAllAreIn : Prop :=
  (∀ (s : State) (i : Fin 2), s.ctrl.setWith .opened = some i →
    let w := s.ctrl.sets.get i
    let allIn : Prop :=
      (∀ l, (s.plant.active.links.get l).mode ≠ .off → (s.links.get l).quarantined = false → w.links.get l ≠ none) ∧
      ∀ l, (s.plant.active.lines.get l).enabled = true → s.ctrl.lineStates.get l ≠ .off → w.lines.get l ≠ none
    (¬ allIn → s.judgeClosure false = s) ∧ (allIn → s.judgeClosure false = s.closeWindow false i)) ∧
  ∀ (s : State) (i : Fin 2), (s.ctrl.sets.get i).status = .opened →
    let w := s.ctrl.sets.get i
    let old := s.plant.active
    let new := s.plant.staged
    let due : Prop := s.plant.commitPending = true ∧ (old.global.commitAtPeriod = false ∨ s.activeBank.count = 0)
    let t := s.closeWindow false i
    (s.ctrl.setWith .computing ≠ none →
      t = { s with ctrl := { s.ctrl with
        lastClosed := w.interval, sets := s.ctrl.sets.set i { w with status := .waiting } } }) ∧
    (s.ctrl.setWith .computing = none →
      let begun : State := { s with
        ctrl := { s.ctrl with lastClosed := w.interval, sets := s.ctrl.sets.set i { w with status := .computing } }
        engine := { Engine.idle with
          phase := .started, lineStates := s.ctrl.lineStates, furnaceStates := s.furnaces.mapIdx fun _ f => f.state }
        working := some (.blank w.interval) }
      let startsFrom (a : State) : Prop :=
        t = { a with furnaces := t.furnaces, engine := { a.engine with quarantined := t.engine.quarantined } } ∧
        (∀ f, t.furnaces.get f = { a.furnaces.get f with
          lag := (t.furnaces.get f).lag, pendingLag := (t.furnaces.get f).pendingLag }) ∧
        ∀ l, t.engine.quarantined.get l = (a.links.get l).quarantined
      (due → startsFrom begun.applyMap) ∧ (¬ due → startsFrom begun) ∧
      (t.ctrl.sets.get i).status = .computing ∧ (t.ctrl.sets.get i).interval = w.interval ∧
      (t.ctrl.sets.get i).links = w.links ∧ (t.ctrl.sets.get i).lines = w.lines ∧ (t.ctrl.sets.get i).mark = w.mark ∧
      t.ctrl.lastClosed = w.interval ∧ t.ctrl.acc = s.ctrl.acc ∧ t.ctrl.current = s.ctrl.current ∧
      t.engine.phase = .started ∧ t.engine.acc = .zero ∧ t.engine.lineStates = s.ctrl.lineStates ∧
      (∀ f, t.engine.furnaceStates.get f = (s.furnaces.get f).state) ∧
      (∀ l, t.engine.quarantined.get l = (t.links.get l).quarantined) ∧
      t.working = some (.blank w.interval) ∧
      (due → t.plant = ⟨new, new, false⟩ ∧ (∀ q, (t.ports.get q).has .committed = true) ∧
        (∀ p, (old.points.get p).enabled ≠ (new.points.get p).enabled →
          t.sources.points.get p =
            ⟨⟨.unset, 0, ⟨false, false, false, false, false⟩, (s.sources.points.get p).head.interval⟩,
              ⟨0, 0, 0, 0, 0⟩⟩ ∧ t.residues.get p = 0) ∧
        (∀ p, (old.points.get p).enabled = (new.points.get p).enabled →
          t.sources.points.get p = s.sources.points.get p ∧ t.residues.get p = s.residues.get p) ∧
        (∀ l, (old.lines.get l).enabled ≠ (new.lines.get l).enabled →
          t.sources.lines.get l =
            ⟨⟨.unset, 0, ⟨false, false, false, false, false⟩, (s.sources.lines.get l).head.interval⟩, ⟨0, 0, 0, 0, 0⟩,
              ⟨0, 0, 0, 0, 0⟩, (s.sources.lines.get l).gobMass⟩) ∧
        (∀ l, (old.lines.get l).enabled = (new.lines.get l).enabled → t.sources.lines.get l = s.sources.lines.get l) ∧
        (∀ f, (old.furnaces.get f).enabled = true → (new.furnaces.get f).enabled = false →
          (t.furnaces.get f).queue = [] ∧
          (s.activeBank.above = false → ∀ c, (t.activeBank.furnaces.get f).noPull.get c =
            min ((s.activeBank.furnaces.get f).noPull.get c + (queueContent (s.furnaces.get f).queue).get c)
              281474976710655)) ∧
        (∀ f, ¬ ((old.furnaces.get f).enabled = true ∧ (new.furnaces.get f).enabled = false) →
          (t.furnaces.get f).queue = (s.furnaces.get f).queue) ∧
        (∀ l, (old.links.get l).mode ≠ (new.links.get l).mode →
          (t.links.get l).rx = { (s.links.get l).rx with decoder := .hunt, strayRun := false, armed := false }) ∧
        ∀ l, (old.links.get l).mode = (new.links.get l).mode → (t.links.get l).rx = (s.links.get l).rx) ∧
      (¬ due → t.plant = s.plant ∧ t.links = s.links ∧ t.sources = s.sources ∧ t.banks = s.banks ∧ t.ports = s.ports) ∧
      ∀ f, (t.furnaces.get f).lag =
          (if s.activeBank.count = 0 then (s.furnaces.get f).pendingLag.getD (s.furnaces.get f).lag
            else (s.furnaces.get f).lag) ∧
        (t.furnaces.get f).pendingLag = (if s.activeBank.count = 0 then none else (s.furnaces.get f).pendingLag))

/-! ## Links -/

/-- LINK WORD: ignored on a link that is OFF or TEST; decoded on a LIVE one, after which closure is judged (R21). That closure is
judged once for a word, after the whole word, is the model's choice (log entry 33): a word that gives two FORM events may quarantine
its link at the first, and the SEQUENCE event of a frame taken may quarantine it before the frame is counted. -/
def Obligations.LinkWordReachesALiveReceiver : Prop :=
  ∀ (l : Fin 8) (w : LinkWord) (s : State),
    ((s.plant.active.links.get l).mode ≠ .live → exec (.linkWord l w) s = .next s) ∧
    ((s.plant.active.links.get l).mode = .live →
      let k := s.links.get l
      let x := receiveWord (s.plant.active.links.get l) w k.rx
      let s1 := x.events.foldl (fun s e => s.errorEvent l e) (s.putLink l { k with rx := x.rx })
      (x.frame = none → exec (.linkWord l w) s = .next (s1.judgeClosure false)) ∧
      ∀ d, x.frame = some d →
        ((s1.links.get l).quarantined = true → exec (.linkWord l w) s = .next (s1.judgeClosure false)) ∧
        ((s1.links.get l).quarantined = false → exec (.linkWord l w) s = .next ((s1.deliver l d).judgeClosure false)))

/-- INJECT WORDS from Port E: refused for a bad link with its detail or a link that is not TEST; otherwise its words are decoded
in order, and closure is judged after each word; with no window OPEN or WAITING that is those words arriving one after another
(R34, R58, 13.1). A closure whose computation would apply a pending commit leaves the set WAITING, and its computation starts at the
end of the run, as the closure would have started it; any other computation starts at its word (log entry 14, the model's). That
closure is judged once for a word, after the whole word (log entry 33), and that a bank whose count is 0 holds no interval, also
after a wrap (log entry 39), are the model's choices. -/
def Obligations.InjectWordsFeedsATestLink : Prop :=
  (∀ (link : Byte) (words : List (Byte × Byte × Byte)) (s : State), s.ctrl.acc ≠ .booting →
    1 ≤ words.length → words.length ≤ 32 →
    let bytes := words.flatMap fun w => [w.1, w.2.1, w.2.2]
    let t : Transfer := ⟨.e, link :: bytes⟩
    let sent := s.writeSent .e (1 + bytes.length)
    (7 < link.toNat → exec (.injectWords t) s = .next (s.answeredRange .e ⟨1, link.toNat, 0⟩ sent)) ∧
    ∀ l : Fin 8, link.toNat = l.val →
      ((s.plant.active.links.get l).mode ≠ .test → exec (.injectWords t) s = .next (s.answered .e .refusedState sent)) ∧
      ((s.plant.active.links.get l).mode = .test →
        exec (.injectWords t) s =
          .next ((s.injectRun l (words.map fun w =>
            ⟨w.2.1 ++ w.2.2, w.1.getLsbD 2, w.1.getLsbD 1, w.1.getLsbD 0, true⟩)).answered .e .done sent))) ∧
  (∀ (l : Fin 8) (ws : List LinkWord) (s : State), s.ctrl.setWith .opened = none → s.ctrl.setWith .waiting = none →
    s.injectRun l ws = ws.foldl (fun s w => s.wordArrives l w) s) ∧
  let allIn (s : State) (i : Fin 2) : Prop :=
    (∀ l, (s.plant.active.links.get l).mode ≠ .off → (s.links.get l).quarantined = false →
      (s.ctrl.sets.get i).links.get l ≠ none) ∧
    ∀ l, (s.plant.active.lines.get l).enabled = true → s.ctrl.lineStates.get l ≠ .off →
      (s.ctrl.sets.get i).lines.get l ≠ none
  let held (s : State) (i : Fin 2) : Prop := s.ctrl.setWith .opened = some i ∧ allIn s i ∧
    s.ctrl.setWith .computing = none ∧ s.plant.commitPending = true ∧
    (s.plant.active.global.commitAtPeriod = false ∨ s.activeBank.count = 0)
  (∀ (l : Fin 8) (ws : List LinkWord) (s : State), ∃ run : Nat → State, run 0 = s ∧
    (∀ k w, ws[k]? = some w →
      let x := (run k).wordArrives l w
      (∀ i, held x i → run (k + 1) = { x with ctrl := { x.ctrl with
        lastClosed := (x.ctrl.sets.get i).interval
        sets := x.ctrl.sets.set i { x.ctrl.sets.get i with status := .waiting } } }) ∧
      ((∀ i, ¬ held x i) → run (k + 1) = x.judgeClosure false)) ∧
    let x := run ws.length
    (∀ i, x.ctrl.setWith .waiting = some i → x.ctrl.setWith .computing = none →
      s.injectRun l ws = x.startComputation i) ∧
    (x.ctrl.setWith .waiting = none ∨ x.ctrl.setWith .computing ≠ none → s.injectRun l ws = x)) ∧
  ∀ (s : State) (i : Fin 2) (st : SetStatus),
    (s.ctrl.setWith .opened = some i → allIn s i → s.ctrl.setWith .computing = none →
      s.judgeClosure false =
        State.startComputation i { s with ctrl := { s.ctrl with lastClosed := (s.ctrl.sets.get i).interval } }) ∧
    State.startComputation i { s with ctrl := { s.ctrl with
        sets := s.ctrl.sets.set i { s.ctrl.sets.get i with status := st } } } = s.startComputation i

/-- A word is good exactly when the ones among its nineteen bits are even in number and its stop bit is high; and the words of a
frame that suits its link, arriving in HUNT, are one frame taken whole: its readings are handed on exactly, its number
becomes the last sequence number, one SEQUENCE event is reported if the check is armed and the number is out of step, and
nothing is discarded (R22 to R26, R29, R31, 13.1). What every single word does in each decoder state, with its events and what it
discards, is as the tables of R22 to R28 and R33 give. -/
def Obligations.AWholeFrameIsTakenExactly : Prop :=
  (∀ (entry : LinkEntry) (w : LinkWord) (r : Receiver),
    let moved (d : Decoder) : Receiver := { r with decoder := d, strayRun := false }
    let broken (n : Nat) (d : Decoder) : Receiver := { moved d with discarded := r.discarded + BitVec.ofNat 16 n }
    let kind := w.data.toNat / 16384
    let count := w.data.toNat / 32 % 32
    let id := w.data.toNat % 32
    let sequence : BitVec 4 := BitVec.ofNat 4 (w.data.toNat / 1024)
    let report : Prop := kind = 1 ∧ 1 ≤ count ∧ count ≤ 16 ∧ count ≤ entry.pointCount ∧ id = entry.concentrator
    let heartbeat : Prop := kind = 2 ∧ count = 0 ∧ id = entry.concentrator
    let header : Prop := w.s = true ∧ w.e = false
    let plain : Prop := w.s = false ∧ w.e = false
    let last : Prop := w.s = false ∧ w.e = true
    let abort : Prop := w.s = true ∧ w.e = true
    let x := receiveWord entry w r
    let taken (h : Header) (d : Delivery) : WordEffect :=
      ⟨{ moved .hunt with lastSeq := h.sequence, armed := true, taken := r.taken + 1 },
       if r.armed = true ∧ h.sequence ≠ r.lastSeq + 1 then [.sequence] else [], some d⟩
    (wordGood w = false →
      (r.decoder = .hunt ∨ r.decoder = .discard → x = ⟨r, [.line], none⟩) ∧
      (r.decoder ≠ .hunt → r.decoder ≠ .discard → x = ⟨broken 1 .discard, [.line], none⟩)) ∧
    (wordGood w = true →
      (header → r.decoder = .hunt ∨ r.decoder = .discard →
        (report → x = ⟨moved (.tag ⟨.report, sequence, count, id⟩), [], none⟩) ∧
        (heartbeat → x = ⟨moved (.tag ⟨.heartbeat, sequence, count, id⟩), [], none⟩) ∧
        (¬ report → ¬ heartbeat → x = ⟨broken 1 .discard, [.form], none⟩)) ∧
      (header → r.decoder ≠ .hunt → r.decoder ≠ .discard →
        (report → x = ⟨broken 1 (.tag ⟨.report, sequence, count, id⟩), [.form], none⟩) ∧
        (heartbeat → x = ⟨broken 1 (.tag ⟨.heartbeat, sequence, count, id⟩), [.form], none⟩) ∧
        (¬ report → ¬ heartbeat → x = ⟨broken 2 .discard, [.form, .form], none⟩)) ∧
      (¬ header → r.decoder = .hunt →
        x = if r.strayRun = true then ⟨r, [], none⟩ else ⟨{ r with strayRun := true }, [.form], none⟩) ∧
      (r.decoder = .discard →
        (plain → x = ⟨r, [], none⟩) ∧ (last ∨ abort → x = ⟨moved .hunt, [], none⟩)) ∧
      (abort → r.decoder ≠ .hunt → r.decoder ≠ .discard → x = ⟨broken 1 .hunt, [.form], none⟩) ∧
      (∀ h, r.decoder = .tag h →
        (plain → h.kind = .report → x = ⟨moved (.points h w.data [] none), [], none⟩) ∧
        (plain → h.kind = .heartbeat → x = ⟨broken 1 .discard, [.form], none⟩) ∧
        (last → h.kind = .report → x = ⟨broken 1 .hunt, [.form], none⟩) ∧
        (last → h.kind = .heartbeat → x = taken h ⟨.heartbeat, w.data, []⟩)) ∧
      ∀ h tag got,
        (r.decoder = .points h tag got none →
          (plain → x = ⟨moved (.points h tag got
            (some ⟨w.data.getLsbD 15, w.data.getLsbD 14, w.data.extractLsb' 0 8⟩)), [], none⟩) ∧
          (last → x = ⟨broken 1 .hunt, [.form], none⟩)) ∧
        ∀ a, r.decoder = .points h tag got (some a) →
          let got' := got ++ [⟨a.high ++ w.data, a.fault, a.manual⟩]
          (plain → got.length + 1 < h.pointCount → x = ⟨moved (.points h tag got' none), [], none⟩) ∧
          (plain → h.pointCount ≤ got.length + 1 → x = ⟨broken 1 .discard, [.form], none⟩) ∧
          (last → got.length + 1 < h.pointCount → x = ⟨broken 1 .hunt, [.form], none⟩) ∧
          (last → h.pointCount ≤ got.length + 1 → x = taken h ⟨h.kind, tag, got'⟩))) ∧
  (∀ w : LinkWord, wordGood w = true ↔
    w.stop = true ∧
      ((∑ i : Fin 16, (w.data.getLsbD i.val).toNat) + w.s.toNat + w.e.toNat + w.p.toNat) % 2 = 0) ∧
  ∀ (entry : LinkEntry) (h : Header) (tag : BitVec 16) (readings : List Reading) (r : Receiver),
    r.decoder = .hunt → h.concentrator = entry.concentrator → h.concentrator ≤ 31 → h.pointCount = readings.length →
    (h.kind = .heartbeat → readings = []) →
    (h.kind = .report → 1 ≤ readings.length ∧ readings.length ≤ 16 ∧ readings.length ≤ entry.pointCount) →
    receiveWords entry (frameWords h tag readings) r =
      ({ r with decoder := .hunt, strayRun := false, lastSeq := h.sequence, armed := true, taken := r.taken + 1 },
       if r.armed = true ∧ h.sequence ≠ r.lastSeq + 1 then [.sequence] else [],
       [⟨h.kind, tag, readings⟩])

/-- One error event at one link (R38 to R40, R42): the counter of its kind alone rises, staying at 255 under HOLD and becoming
0 under WRAP; a counter that becomes equal to the threshold sets its flag and, if that was clear, LINK_THRESHOLD in the three
ports; quarantine follows the flags; a link that enters quarantine loses its delivery in the open window. -/
def Obligations.ErrorEventCountsAndFlags : Prop :=
  ∀ (l : Fin 8) (e : ErrorKind) (s : State),
    let g := s.plant.active.global
    let k := s.links.get l
    let old := k.counts.get e
    let new : BitVec 8 := if old = 255 then (if g.wrapMask.get e then 0 else 255) else old + 1
    let met : Bool := decide (new ≠ old ∧ new.toNat = g.threshold)
    let flags := k.flags.put e (k.flags.get e || met)
    let t := s.errorEvent l e
    (t.links.get l).counts = k.counts.put e new ∧ (t.links.get l).flags = flags ∧ (t.links.get l).rx = k.rx ∧
    (t.links.get l).quarantined = covered flags g.quarantineMask ∧
    (∀ m, m ≠ l → t.links.get m = s.links.get m) ∧
    (∀ p, t.ports.get p =
      if met ∧ k.flags.get e = false then
        { s.ports.get p with notices := (s.ports.get p).notices ||| BitVec.twoPow 16 5 }
      else s.ports.get p) ∧
    (∀ i, k.quarantined = false → covered flags g.quarantineMask = true → s.ctrl.setWith .opened = some i →
      t.ctrl = { s.ctrl with
        sets := s.ctrl.sets.set i { s.ctrl.sets.get i with links := (s.ctrl.sets.get i).links.set l none } }) ∧
    (¬ (k.quarantined = false ∧ covered flags g.quarantineMask = true) ∨ s.ctrl.setWith .opened = none →
      t.ctrl = s.ctrl) ∧
    t.plant = s.plant ∧ t.sources = s.sources ∧ t.banks = s.banks ∧ t.engine = s.engine

/-- CLEAR LINK COUNTERS from Port E clears one link, or all of them one after another in the order of their numbers; closure is
judged after each. Any other selector is refused with its detail (R44, R45). The order of the eight is the model's choice
(log entry 30). -/
def Obligations.ClearLinkCountersFreesTheLink : Prop :=
  ∀ (sel : Byte) (s : State), s.ctrl.acc ≠ .booting →
    let sent := s.writeSent .e 1
    let cleared (l : Fin 8) (s : State) : State :=
      let k := s.links.get l
      let k' : Link := { k with
        counts := ⟨0, 0, 0, 0⟩, flags := ⟨false, false, false, false⟩, quarantined := false
        rx := { k.rx with taken := 0, discarded := 0, armed := false } }
      (s.putLink l k').judgeClosure false
    (∀ l : Fin 8, sel.toNat = l.val →
      exec (.clearLinkCounters ⟨.e, [sel]⟩) s = .next ((cleared l s).answered .e .done sent)) ∧
    (sel = 0xFF →
      exec (.clearLinkCounters ⟨.e, [sel]⟩) s =
        .next (([0, 1, 2, 3, 4, 5, 6, 7].foldl (fun s l => cleared l s) s).answered .e .done sent)) ∧
    (7 < sel.toNat → sel ≠ 0xFF →
      exec (.clearLinkCounters ⟨.e, [sel]⟩) s = .next (s.answeredRange .e ⟨1, sel.toNat, 0⟩ sent))

/-! ## The store, start-up and pin reset -/

/-- SAVE IMAGE, LOAD IMAGE and SET STORE PROTECT from Port E, each judged in its order (R180, R181, R182). -/
def Obligations.StoreCommandsAreJudgedInOrder : Prop :=
  ∀ (v : Byte) (wpN : Bool) (s : State), s.ctrl.acc ≠ .booting →
    let st := s.store
    (st.busy = true →
      exec (.saveImage ⟨.e, []⟩) s = .next (s.answered .e .refusedBusy (s.writeSent .e 0)) ∧
      exec (.loadImage ⟨.e, []⟩) s = .next (s.answered .e .refusedBusy (s.writeSent .e 0)) ∧
      exec (.setStoreProtect ⟨.e, [v]⟩ wpN) s = .next (s.answered .e .refusedBusy (s.writeSent .e 1))) ∧
    (st.busy = false →
      (st.lock = true →
        exec (.saveImage ⟨.e, []⟩) s = .next (s.answered .e .refusedProtected (s.writeSent .e 0))) ∧
      (st.lock = false →
        exec (.saveImage ⟨.e, []⟩) s =
          .next (({ s with store := { st with
              busy := true
              op := .save s.plant.staged (s.furnaces.mapIdx fun _ f => f.lag) 0 } } : State).answered .e .accepted
            (s.writeSent .e 0))) ∧
      (s.plant.commitPending = true →
        exec (.loadImage ⟨.e, []⟩) s = .next (s.answered .e .refusedBusy (s.writeSent .e 0))) ∧
      (s.plant.commitPending = false →
        exec (.loadImage ⟨.e, []⟩) s =
          .next (({ s with store := { st with busy := true, op := .load } } : State).answered .e .accepted
            (s.writeSent .e 0))) ∧
      (3 < v.toNat →
        exec (.setStoreProtect ⟨.e, [v]⟩ wpN) s =
          .next (s.answeredRange .e ⟨0, v.toNat, 1⟩ (s.writeSent .e 1))) ∧
      (v.toNat ≤ 3 → st.freeze = true → wpN = false →
        exec (.setStoreProtect ⟨.e, [v]⟩ wpN) s = .next (s.answered .e .refusedProtected (s.writeSent .e 1))) ∧
      (v.toNat ≤ 3 → st.freeze = false ∨ wpN = true →
        exec (.setStoreProtect ⟨.e, [v]⟩ wpN) s =
          .next (({ s with store := { st with
              lock := decide (v.toNat % 2 = 1), freeze := decide (2 ≤ v.toNat) } } : State).answered .e .done
            (s.writeSent .e 1))))

/-- The store's own events (R19, R179 to R181): a byte of a save is written at its address alone; a save whose last byte is
written completes; a load completes with a good image, which replaces the staged map, or a bad one; and BOOTING ends with a
good image loaded into both maps and the active lags, READY, or with the empty map, lags of 0, IMAGE_FAULT and
UNCONFIGURED. An image is judged by six steps, of which the first that fails is its failed step; a good image gives the map in which
every entry is the image's and the lags of its last four bytes (R178, 13.7). -/
def Obligations.StoreOperationsRunToCompletion : Prop :=
  (∀ img : List Host.Cell,
    let one (k : Nat) : Nat := (Image.read img k).toNat
    let two (k : Nat) : Nat := one k * 256 + one (k + 1)
    let word (k : Nat) : Nat := two k * 65536 + two (k + 2)
    let start (table : Nat) : Nat × Nat := match table with
      | 0 => (0, 8) | 1 => (8, 4) | 2 => (40, 12) | 3 => (1576, 4) | 4 => (1592, 12) | 5 => (1736, 4) | _ => (1752, 32)
    let entry (table index : Nat) : List Byte :=
      (List.range 32).map fun k => Image.read img (12 + (start table).1 + (start table).2 * index + k)
    let offends : Prop :=
      (∃ table index n d, tableEntries table = some n ∧ index < n ∧
        writeEntry .empty table index (entry table index) = .error d) ∨ ∃ f : Fin 4, 63 < one (2020 + f.val)
    (two 0 ≠ 0x5E12 → judgeImage img = .bad 1) ∧
    (two 0 = 0x5E12 → two 2 ≠ 1 → judgeImage img = .bad 2) ∧
    (two 0 = 0x5E12 → two 2 = 1 → word 4 ≠ 2012 → judgeImage img = .bad 3) ∧
    (two 0 = 0x5E12 → two 2 = 1 → word 4 = 2012 →
      (word 8 ≠ (∑ k : Fin 503, word (12 + 4 * k.val)) % 4294967296 → judgeImage img = .bad 4) ∧
      (word 8 = (∑ k : Fin 503, word (12 + 4 * k.val)) % 4294967296 →
        (offends → judgeImage img = .bad 5) ∧
        (¬ offends → ∃ (m : PlantMap) (lags : Tab 4 Nat),
          (∀ table index n, tableEntries table = some n → index < n →
            writeEntry m table index (entry table index) = .ok m) ∧
          (∀ f, lags.get f = one (2020 + f.val)) ∧
          (mapCheck m ≠ none → judgeImage img = .bad 6) ∧
          (mapCheck m = none → judgeImage img = .good m lags))))) ∧
  ∀ s : State,
    (∀ m lags k, s.store.op = .save m lags k → k < 4096 →
      ∃ image, exec .imageByteWrite s =
          .next { s with store := { s.store with image := image, op := .save m lags (k + 1) } } ∧
        Image.read image k = (imageBytes m lags).getD k 0 ∧ ∀ a, a ≠ k → Image.read image a = Image.read s.store.image a) ∧
    (∀ m lags k, s.store.op = .save m lags k → 4096 ≤ k →
      exec .saveComplete s =
        .next (({ s with store := { s.store with
          busy := false, op := .none, lastOp := .save, outcome := .written, failedStep := 0 } } : State).notify
            .storeDone)) ∧
    (s.store.op = .load →
      (∀ m lags, judgeImage s.store.image = .good m lags →
        exec .loadComplete s =
          .next (({ s with
            plant := { s.plant with staged := m }
            store := { s.store with
              busy := false, op := .none, lastOp := .load, outcome := .good, failedStep := 0 } } : State).notify
            .storeDone)) ∧
      ∀ k, judgeImage s.store.image = .bad k →
        exec .loadComplete s =
          .next ((({ s with store := { s.store with
            busy := false, op := .none, lastOp := .load, outcome := .bad, failedStep := k } } : State).notify
              .imageFault).notify .storeDone)) ∧
    (s.ctrl.acc = .booting →
      (∀ m lags, judgeImage s.store.image = .good m lags →
        exec .startUpReadDone s = .next { s with
          plant := { s.plant with staged := m, active := m }
          furnaces := s.furnaces.mapIdx fun f x => { x with lag := lags.get f }
          store := { s.store with
            busy := false, op := .none, lastOp := .startUp, outcome := .good, failedStep := 0 }
          ctrl := { s.ctrl with acc := .ready } }) ∧
      ∀ k, judgeImage s.store.image = .bad k →
        exec .startUpReadDone s = .next (({ s with
          plant := { s.plant with staged := .empty, active := .empty }
          furnaces := s.furnaces.mapIdx fun _ x => { x with lag := 0 }
          store := { s.store with
            busy := false, op := .none, lastOp := .startUp, outcome := .bad, failedStep := k }
          ctrl := { s.ctrl with acc := .unconfigured } } : State).notify .imageFault))

/-- An image area that a whole save has written is judged good, and the judgement gives back the map and the lags saved, for
every map in range that COMMIT would accept (R178, R180, 13.5, 13.7). -/
def Obligations.SavedImageIsJudgedGood : Prop :=
  ∀ (m : PlantMap) (lags : Tab 4 Nat) (st : Store), m.inRange → mapCheck m = none → (∀ f, lags.get f ≤ 63) →
    st.op = .save m lags 0 →
    (Store.writeByte^[4096] st).saveWritten = true ∧
    (∀ k, k < 4096 → Image.read (Store.writeByte^[4096] st).image k = (imageBytes m lags).getD k 0) ∧
    judgeImage (Store.writeByte^[4096] st).image = .good m lags

/-- A pin reset (R19, R37, R48, R49, R50, R69, R89, R114, R138, R159, R160, R176, R177): every block at its pin-reset value,
the image area and the protect cell as they stand. That the queue of waiting commands and the count of free values stay is the
model's (log entry 31). -/
def Obligations.PinResetLeavesThePinResetValues : Prop :=
  ∀ s : State, ∃ t : State, exec .pinReset s = .next t ∧
    t.ctrl.acc = .booting ∧ t.ctrl.current = 0 ∧ t.ctrl.lastClosed = 0 ∧ t.ctrl.closeLatch = false ∧
    (∀ i, (t.ctrl.sets.get i).status = .free) ∧ (∀ l, t.ctrl.lineStates.get l = .off) ∧
    t.plant.commitPending = false ∧ (∀ l, (t.plant.active.links.get l).mode = .off) ∧
    (∀ l, (t.links.get l).rx = ⟨.hunt, false, 0, false, 0, 0⟩ ∧ (t.links.get l).counts = ⟨0, 0, 0, 0⟩ ∧
      (t.links.get l).flags = ⟨false, false, false, false⟩ ∧ (t.links.get l).quarantined = false) ∧
    (∀ p, t.sources.points.get p = ⟨⟨.unset, 0, ⟨false, false, false, false, false⟩, 0⟩, ⟨0, 0, 0, 0, 0⟩⟩ ∧
      t.residues.get p = 0) ∧
    (∀ l, t.sources.lines.get l =
      ⟨⟨.unset, 0, ⟨false, false, false, false, false⟩, 0⟩, ⟨0, 0, 0, 0, 0⟩, ⟨0, 0, 0, 0, 0⟩, 0⟩) ∧
    (∀ f, (t.furnaces.get f).state = .melt ∧ (t.furnaces.get f).queue = [] ∧ (t.furnaces.get f).pendingLag = none) ∧
    t.working = none ∧ t.published = none ∧
    t.banks.get 0 = .cleared .active 1 ∧ t.banks.get 1 = .cleared .empty 0 ∧
    (∀ p, (t.ports.get p).decoder = none ∧ (t.ports.get p).buffer = List.replicate 64 0xFF ∧
      (t.ports.get p).lastResult = .noCommand ∧ (t.ports.get p).detail = ⟨0, 0, 0⟩ ∧
      (t.ports.get p).notices = 0 ∧ (t.ports.get p).mask = 0) ∧
    t.store.image = s.store.image ∧ t.store.lock = s.store.lock ∧ t.store.freeze = s.store.freeze ∧
    t.store.busy = true ∧ t.store.op = .none ∧ t.pending = s.pending ∧ t.freeIdx = s.freeIdx

/-- An event of the part's own that is not due changes nothing (log entry 8: the table lists these events as commands, and what
one does when it is not due is the model's choice). -/
def Obligations.EventsNotDueChangeNothing : Prop :=
  ∀ s : State,
    (∀ x ∈ [(Instr.reconciliationStage, Phase.started), (.conversionStage, .reconciled), (.residenceQueueStage, .converted),
        (.furnaceSplit, .queued), (.poolSplit, .furnaceSplit), (.totalsStage, .poolSplit)],
      s.ctrl.setWith .computing = none ∨ s.engine.phase ≠ x.2 → exec x.1 s = .next s) ∧
    (s.ctrl.setWith .computing = none ∨ (s.engine.phase ≠ .totalled ∧ s.engine.phase ≠ .banked) →
      exec .completion s = .next s) ∧
    (s.ctrl.acc ≠ .booting → exec .startUpReadDone s = .next s) ∧
    (s.store.op ≠ .load → exec .loadComplete s = .next s) ∧
    ((∀ m lags k, s.store.op ≠ .save m lags k) → exec .imageByteWrite s = .next s ∧ exec .saveComplete s = .next s) ∧
    (∀ m lags k, s.store.op = .save m lags k → 4096 ≤ k → exec .imageByteWrite s = .next s) ∧
    ∀ m lags k, s.store.op = .save m lags k → k < 4096 → exec .saveComplete s = .next s

/-! ## The stages of a computation -/

/-- RECONCILIATION STAGE (R70 to R72, R86): every enabled point and line is reconciled once against the window, with the
reading of R71, and a disabled one stands. The header takes the links and lines used and the findings of the stage and keeps the
rest (R138). -/
def Obligations.ReconciliationStageTakesEachSourceOnce : Prop :=
  ∀ (s : State) (i : Fin 2), s.ctrl.setWith .computing = some i → s.engine.phase = .started →
    let m := s.plant.active
    let w := s.ctrl.sets.get i
    let reading (p : Fin 128) : Option Reading :=
      if s.engine.quarantined.get ⟨p.val / 16, by omega⟩ then none
      else match w.links.get ⟨p.val / 16, by omega⟩ with
        | none => none
        | some d => match d.readings[p.val % 16]? with
          | none => none
          | some r => if r.fault then none else some r
    ∃ (t : SourceTable) (h : ResultHeader → ResultHeader),
      exec .reconciliationStage s =
        .next { s with
          sources := t
          engine := { s.engine with phase := .reconciled }
          working := s.working.map fun x => { x with header := h x.header } } ∧
      (∀ p, (m.points.get p).enabled = true →
        t.points.get p = (s.sources.points.get p).reconcile m.global.holdLimit (m.points.get p).maxInc w.interval
          (reading p)) ∧
      (∀ p, (m.points.get p).enabled = false → t.points.get p = s.sources.points.get p) ∧
      (∀ l, (m.lines.get l).enabled = true →
        t.lines.get l = (s.sources.lines.get l).reconcile m.global.holdLimit (m.lines.get l).maxGobs w.interval
          (s.engine.lineStates.get l) (w.lines.get l)) ∧
      (∀ l, (m.lines.get l).enabled = false → t.lines.get l = s.sources.lines.get l) ∧
      ∀ x, h x = { x with
          linksUsed := (h x).linksUsed, linesUsed := (h x).linesUsed, findings := { (h x).findings with saturated := false } } ∧
        (∀ l, (h x).linksUsed.get l = true ↔ w.links.get l ≠ none ∧ s.engine.quarantined.get l = false) ∧
        (∀ l, (h x).linesUsed.get l = true ↔ w.lines.get l ≠ none ∧ (m.lines.get l).enabled = true) ∧
        ((h x).findings.estimate = true ↔
          (∃ p, (m.points.get p).enabled = true ∧ (t.points.get p).head.quality.estimated = true) ∨
          ∃ l, (m.lines.get l).enabled = true ∧ (t.lines.get l).head.quality.estimated = true) ∧
        ((h x).findings.implausible = true ↔
          (∃ p, (m.points.get p).enabled = true ∧ (t.points.get p).head.quality.implausible = true) ∨
          ∃ l, (m.lines.get l).enabled = true ∧ (t.lines.get l).head.quality.implausible = true) ∧
        ((h x).findings.pointLost = true ↔
          (∃ p, (m.points.get p).enabled = true ∧ (s.sources.points.get p).head.state ≠ .lost ∧
            (t.points.get p).head.state = .lost) ∨
          ∃ l, (m.lines.get l).enabled = true ∧ (s.sources.lines.get l).head.state ≠ .lost ∧
            (t.lines.get l).head.state = .lost)

/-- The reconciliation machine (R71, R74 to R82): what a delivered value and a missed interval do to one counter set in each
state, under a register of any modulus; what they do to the shared state and run count; and that a point and each of a line's
two sets are reconciled so. -/
def Obligations.ReconciliationMachineFollowsItsTable : Prop :=
  (∀ (modulus step k v : Nat) (c : CounterSet), v < modulus → c.base < modulus →
    let d := (v + modulus - c.base) % modulus
    let owed := c.sum + c.debt
    c.delivered modulus step .unset k v = (⟨v, 0, 0, 0, 0⟩, ⟨false, true, false, false, false⟩) ∧
    c.delivered modulus step .lost k v = (⟨v, 0, 0, 0, 0⟩, ⟨false, true, false, false, false⟩) ∧
    (d ≤ step → c.delivered modulus step .tracking k v = (⟨v, c.sum, c.debt - d, d, d - c.debt⟩, .empty)) ∧
    (step < d → c.delivered modulus step .tracking k v =
      (⟨v, 0, 0, c.lastInc, c.lastInc⟩, ⟨true, false, true, false, false⟩)) ∧
    (d ≤ step * (k + 1) → owed - d < modulus → c.delivered modulus step .estimating k v =
      (⟨v, 0, owed - d, d / (k + 1), d - owed⟩, ⟨true, false, false, false, false⟩)) ∧
    (step * (k + 1) < d ∨ modulus ≤ owed - d → c.delivered modulus step .estimating k v =
      (⟨v, 0, 0, c.lastInc, 0⟩, ⟨false, false, true, false, false⟩))) ∧
  (∀ (h k : Nat) (c : CounterSet),
    c.missed h .unset k = { c with booked := 0 } ∧ c.missed h .lost k = { c with booked := 0 } ∧
    (1 ≤ h → c.missed h .tracking k = { c with sum := c.lastInc, booked := c.lastInc }) ∧
    (h = 0 → c.missed h .tracking k = { c with booked := 0 }) ∧
    (k < h → c.missed h .estimating k = { c with sum := c.sum + c.lastInc, booked := c.lastInc }) ∧
    (h ≤ k → c.missed h .estimating k = { c with booked := 0 })) ∧
  (∀ (h : Nat) (n : BitVec 32) (x : SrcHead),
    (x.state = .unset → x.missed h n = ⟨.unset, x.run, ⟨false, true, false, false, false⟩, n⟩) ∧
    (x.state = .lost → x.missed h n = ⟨.lost, x.run, ⟨false, true, false, false, false⟩, n⟩) ∧
    (x.state = .tracking → 1 ≤ h → x.missed h n = ⟨.estimating, 1, ⟨true, false, false, false, false⟩, n⟩) ∧
    (x.state = .tracking → h = 0 → x.missed h n = ⟨.lost, 0, ⟨false, true, false, false, false⟩, n⟩) ∧
    (x.state = .estimating → x.run < h →
      x.missed h n = ⟨.estimating, x.run + 1, ⟨true, false, false, false, false⟩, n⟩) ∧
    (x.state = .estimating → h ≤ x.run → x.missed h n = ⟨.lost, 0, ⟨false, true, false, false, false⟩, n⟩)) ∧
  (∀ (h step : Nat) (n : BitVec 32) (r : PointRecord),
    (∀ x : Reading,
      let c := r.counter.delivered 16777216 step r.head.state r.head.run x.value.toNat
      r.reconcile h step n (some x) = ⟨⟨.tracking, 0, { c.2 with manual := x.manual }, n⟩, c.1⟩) ∧
    r.reconcile h step n none = ⟨r.head.missed h n, r.counter.missed h r.head.state r.head.run⟩) ∧
  ∀ (h step : Nat) (n : BitVec 32) (st : LineState) (r : LineRecord),
    (∀ t : Tally,
      let g := r.gobs.delivered 4294967296 step r.head.state r.head.run t.gobs.toNat
      let p := r.packed.delivered 4294967296 step r.head.state r.head.run t.packed.toNat
      r.reconcile h step n st (some t) = ⟨⟨.tracking, 0, g.2.union p.2, n⟩, g.1, p.1, t.gobMass.toNat⟩) ∧
    r.reconcile h step n .off none =
      { r with
          head := { r.head with quality := .empty, interval := n }
          gobs := { r.gobs with booked := 0 }
          packed := { r.packed with booked := 0 } } ∧
    (st ≠ .off →
      r.reconcile h step n st none =
        { r with
            head := r.head.missed h n
            gobs := r.gobs.missed h r.head.state r.head.run
            packed := r.packed.missed h r.head.state r.head.run })

/-- The law of the source table (R83): over any run of reconciliations of one counter of a source, under whatever hold limits and
windows are in force at each, in TRACKING and ESTIMATING the counts booked since the baseline was last taken are the counts
observed since then, plus the estimate sum, plus the debt. The run starts where a baseline has just been taken. -/
def Obligations.BookedCountsFollowTheAccountLaw : Prop :=
  ∀ (modulus v0 : Nat) (run : List (Nat × Nat × Option Nat)), 0 < modulus → v0 < modulus →
    (∀ x ∈ run, ∀ v, x.2.2 = some v → v < modulus) →
    let x := run.foldl (fun x o => ledgerStep modulus o.1 o.2.1 o.2.2 x)
      ⟨.tracking, 0, ⟨v0, 0, 0, 0, 0⟩, 0, 0⟩
    x.state = .tracking ∨ x.state = .estimating → x.booked = x.observed + x.counter.sum + x.counter.debt

/-- CONVERSION STAGE (R91, R96 to R99): each enabled point has its entry and its new residue, each enabled line its masses, and
every accumulator grows by exactly the sum of what targets it. The quality of each joins the quality sets its target names, whatever
its count (R97, R99). A line entry keeps the minimum of its LINE entry in the active map (R133, R142). Counts are read where stage 2
left them (log entry 19); that the energies of a new line entry are 0 and its figures no figure until a later stage forms them is the
model's choice (log entry 40). -/
def Obligations.ConversionStageRoutesEachKilojoule : Prop :=
  ∀ (s : State) (i : Fin 2), s.ctrl.setWith .computing = some i → s.engine.phase = .reconciled →
    let m := s.plant.active
    let kj (p : Fin 128) : Nat :=
      if (m.points.get p).enabled then
        (convert m.curves (m.points.get p) (s.sources.points.get p).counter.booked (s.residues.get p)).kj
      else 0
    let into (c : Carrier) (q : Target → Bool) : Nat :=
      ∑ p : Fin 128, if (m.points.get p).carrier = c ∧ q (m.points.get p).target = true then kj p else 0
    let gross (l : Fin 12) : Nat :=
      if (m.lines.get l).enabled then (s.sources.lines.get l).gobs.booked * (s.sources.lines.get l).gobMass else 0
    let packed (l : Fin 12) : Nat :=
      if (m.lines.get l).enabled then (s.sources.lines.get l).packed.booked * (s.sources.lines.get l).gobMass else 0
    ∃ (residues : Tab 128 Nat) (a : Accumulators) (w : Option ResultTable),
      exec .conversionStage s =
        .next { s with residues := residues, engine := { s.engine with phase := .converted, acc := a }, working := w } ∧
      (∀ p, (m.points.get p).enabled = true → residues.get p =
        (convert m.curves (m.points.get p) (s.sources.points.get p).counter.booked (s.residues.get p)).residue) ∧
      (∀ p, (m.points.get p).enabled = false → residues.get p = s.residues.get p) ∧
      (∀ f c, (a.furnaceDirect.get f).get c =
        (s.engine.acc.furnaceDirect.get f).get c + into c fun t => t == .furnace f) ∧
      (∀ l c, (a.lineDirect.get l).get c = (s.engine.acc.lineDirect.get l).get c + into c fun t => t == .line l) ∧
      (∀ q c, (a.poolMetered.get q).get c = (s.engine.acc.poolMetered.get q).get c + into c fun t => t == .pool q) ∧
      (∀ c, a.monitor.get c = s.engine.acc.monitor.get c + into c fun t => t == .monitor) ∧
      (∀ c, a.plant.get c = s.engine.acc.plant.get c + into c fun t => t != .monitor) ∧
      (∀ l, a.gross.get l = s.engine.acc.gross.get l + gross l) ∧
      (∀ l, a.packed.get l = s.engine.acc.packed.get l + packed l) ∧
      a.plantGross = s.engine.acc.plantGross + ∑ l, gross l ∧
      a.plantPacked = s.engine.acc.plantPacked + ∑ l, packed l ∧
      (∀ flag : Quality → Bool,
        flag ∈ [Quality.estimated, Quality.incomplete, Quality.implausible, Quality.manual, Quality.saturated] →
        let before := s.engine.acc
        let fromPoint (q : Target → Bool) : Prop := ∃ p, (m.points.get p).enabled = true ∧
          q (m.points.get p).target = true ∧ flag (s.sources.points.get p).head.quality = true
        let fromLine (l : Fin 12) : Prop :=
          (m.lines.get l).enabled = true ∧ flag (s.sources.lines.get l).head.quality = true
        (∀ f, flag (a.furnaceQuality.get f) = true ↔
          flag (before.furnaceQuality.get f) = true ∨ fromPoint fun t => t == .furnace f) ∧
        (∀ l, flag (a.lineQuality.get l) = true ↔
          flag (before.lineQuality.get l) = true ∨ (fromPoint fun t => t == .line l) ∨ fromLine l) ∧
        (∀ q, flag (a.poolQuality.get q) = true ↔
          flag (before.poolQuality.get q) = true ∨ fromPoint fun t => t == .pool q) ∧
        (flag a.monitorQuality = true ↔ flag before.monitorQuality = true ∨ fromPoint fun t => t == .monitor) ∧
        (flag a.plantQuality = true ↔
          flag before.plantQuality = true ∨ (fromPoint fun t => t != .monitor) ∨ ∃ l, fromLine l)) ∧
      ∀ x, s.working = some x → ∃ y, w = some y ∧ y.header = x.header ∧
        y.furnaces = x.furnaces ∧ y.pools = x.pools ∧ y.plant = x.plant ∧
        (∀ p, (m.points.get p).enabled = false → y.points.get p = none) ∧
        (∀ p, (m.points.get p).enabled = true → ∃ e, y.points.get p = some e ∧
          e.count = (s.sources.points.get p).counter.booked ∧
          e.segment = (if e.count = 0 then 0 else segmentOf e.count (m.points.get p).maxInc) ∧ e.kj = kj p ∧ e.residue = residues.get p ∧
          e.carrier = (m.points.get p).carrier ∧ e.target = (m.points.get p).target ∧
          e.quality = (s.sources.points.get p).head.quality) ∧
        (∀ l, (m.lines.get l).enabled = false → y.lines.get l = none) ∧
        ∀ l, (m.lines.get l).enabled = true → ∃ e, y.lines.get l = some e ∧
          e.state = s.engine.lineStates.get l ∧ e.gobs = (s.sources.lines.get l).gobs.booked ∧
          e.packed = (s.sources.lines.get l).packed.booked ∧ e.gobMass = (s.sources.lines.get l).gobMass ∧
          e.grossMass = gross l ∧ e.packedMass = packed l ∧ e.quality = (s.sources.lines.get l).head.quality ∧
          e.minMass = (m.lines.get l).minMass ∧ e.furnaceShare = ⟨0, 0, 0, 0⟩ ∧ e.direct = ⟨0, 0, 0, 0⟩ ∧
          e.poolShare = ⟨0, 0, 0, 0⟩ ∧ e.total = ⟨0, 0, 0, 0⟩ ∧ e.seGross = 16777215 ∧ e.sePack = 16777215

/-- The arithmetic of a conversion (R92 to R95): the segment, the gain of a curve's segment or 1.0 without a curve, the exact
product, the residue; and over any run of conversions
of one point, under whatever entries are in force at each, the kilojoules booked and the final residue account for every
energy product whole. -/
def Obligations.ConversionLosesNoEnergy : Prop :=
  (∀ c m : Nat,
    (c * 16 / (m + 1) ≤ 15 → segmentOf c m = c * 16 / (m + 1)) ∧
    (15 < c * 16 / (m + 1) → segmentOf c m = 15) ∧ (c ≤ m → c * 16 / (m + 1) ≤ 15) ∧ (m < c → segmentOf c m = 15)) ∧
  (∀ c g f : Nat, energyProduct c g f = c * g * f / 32768 ∧ energyProduct c 32768 f = c * f ∧ energyProduct c g 0 = 0 ∧
    (c < 16777216 → g ≤ 65535 → f ≤ 4294967295 → energyProduct c g f < 2 ^ 57)) ∧
  (∀ (curves : Tab 8 CurveEntry) (s : Fin 16), gainOf curves none s.val = 32768 ∧
    ∀ k : Fin 8, gainOf curves (some k) s.val = (curves.get k).gains.get s) ∧
  (∀ (curves : Tab 8 CurveEntry) (e : PointEntry) (c r : Nat),
    (c = 0 → convert curves e c r = ⟨0, 0, r⟩) ∧
    (c ≠ 0 →
      let t := r + energyProduct c (gainOf curves e.curve (segmentOf c e.maxInc)) e.factor
      convert curves e c r = ⟨segmentOf c e.maxInc, t / 65536, t % 65536⟩) ∧
    (c < 16777216 → (∀ k s, ((curves.get k).gains.get s) ≤ 65535) → e.factor ≤ 4294967295 → r < 65536 →
      (convert curves e c r).kj < 2 ^ 41)) ∧
  ∀ (run : List (Tab 8 CurveEntry × PointEntry × Nat)) (r0 : Nat),
    let x := run.foldl (fun (x : Nat × Nat) o =>
      let v := convert o.1 o.2.1 o.2.2 x.2
      (x.1 + v.kj, v.residue)) (0, r0)
    x.1 * 65536 + x.2 =
      r0 + (run.map fun o => energyProduct o.2.2 (gainOf o.1 o.2.1.curve (segmentOf o.2.2 o.2.1.maxInc)) o.2.1.factor).sum

/-- RESIDENCE QUEUE STAGE (R104 to R108): in MELT a record is pushed and records leave the head until no more than the lag
remain, every record staying or leaving whole; in HOLD and HEATUP the direct energy bypasses the queue; a disabled furnace
is not taken. A furnace entry keeps the minimum of its FURNACE entry in the active map (R133, R142). That its fields of the later
stages are 0, no figure and empty until they are formed is the model's choice (log entry 40). -/
def Obligations.QueueStagePushesAndReleases : Prop :=
  ∀ (s : State) (i : Fin 2), s.ctrl.setWith .computing = some i → s.engine.phase = .converted →
    ∃ (fs : Tab 4 Furnace) (sat : Bool) (out : Tab 4 Released) (w : Option ResultTable),
      exec .residenceQueueStage s =
        .next { s with
          furnaces := fs
          engine := { s.engine with phase := .queued, saturated := sat, released := out }
          working := w } ∧
      (sat = true ↔ ∃ f, (s.plant.active.furnaces.get f).enabled = true ∧ s.engine.furnaceStates.get f = .melt ∧
        ∃ c, 1099511627775 < (s.engine.acc.furnaceDirect.get f).get c) ∧
      (∀ x, s.working = some x → ∃ y, w = some y ∧ y.header = x.header ∧ y.points = x.points ∧ y.lines = x.lines ∧
        y.pools = x.pools ∧ y.plant = x.plant) ∧
      ∀ f,
        let x := s.furnaces.get f
        let direct := s.engine.acc.furnaceDirect.get f
        let entry : Option FurnaceResult := w.bind fun y => y.furnaces.get f
        ((s.plant.active.furnaces.get f).enabled = false →
          fs.get f = x ∧ entry = none ∧ out.get f = ⟨.empty, 0⟩) ∧
        ((s.plant.active.furnaces.get f).enabled = true →
          (∀ y, w = some y → entry ≠ none) ∧
          (fs.get f).state = x.state ∧ (fs.get f).lag = x.lag ∧ (fs.get f).pendingLag = x.pendingLag ∧
          (∀ e, entry = some e → e.state = s.engine.furnaceStates.get f ∧ e.lag = x.lag ∧ e.metered = direct ∧
            e.occupancy = (fs.get f).queue.length ∧ e.minMass = (s.plant.active.furnaces.get f).minMass ∧
            e.pull = 0 ∧ e.attributed = ⟨0, 0, 0, 0⟩ ∧ e.noPull = ⟨0, 0, 0, 0⟩ ∧ e.seMelt = 16777215 ∧
            e.seFired = 16777215 ∧ e.quality = ⟨false, false, false, false, false⟩) ∧
          (s.engine.furnaceStates.get f = .melt →
            ∃ (r : QueueRecord) (gone : List QueueRecord),
              r.interval = (s.ctrl.sets.get i).interval ∧ (∀ c, r.energy.get c = min (direct.get c) 1099511627775) ∧
              r.quality = { s.engine.acc.furnaceQuality.get f with saturated := r.quality.saturated } ∧
              (r.quality.saturated = true ↔ (s.engine.acc.furnaceQuality.get f).saturated = true ∨
                ∃ c, 1099511627775 < direct.get c) ∧
              gone ++ (fs.get f).queue = x.queue ++ [r] ∧ (fs.get f).queue.length = min (x.queue.length + 1) x.lag ∧
              out.get f = ⟨queueQuality gone, gone.length⟩ ∧
              ∀ e, entry = some e → e.released = queueContent gone ∧ e.hold = .zero ∧ e.heatup = .zero) ∧
          (s.engine.furnaceStates.get f ≠ .melt →
            (fs.get f).queue = x.queue ∧ out.get f = ⟨.empty, 0⟩ ∧
            ∀ e, entry = some e → e.released = .zero ∧
              e.hold = (if s.engine.furnaceStates.get f = .hold then direct else .zero) ∧
              e.heatup = (if s.engine.furnaceStates.get f = .heatup then direct else .zero)))

/-- The largest-remainder split (R117): the shares are floor shares with one kilojoule more for the first lines of the ranking,
they sum exactly to the amount, each is within one kilojoule of its exact part, and a larger weight never receives less. -/
def Obligations.SplitSharesSumToTheAmount : Prop :=
  ∀ (e : Nat) (w : Tab 12 Nat), (∃ l, w.get l ≠ 0) →
    let total := ∑ l, w.get l
    let floorOf (l : Fin 12) : Nat := e * w.get l / total
    let rest (l : Fin 12) : Nat := (e * w.get l) % total
    let leftover := e - ∑ l, floorOf l
    let before (j l : Fin 12) : Prop := rest l < rest j ∨ (rest l = rest j ∧ j < l)
    let rank (l : Fin 12) : Nat := {j : Fin 12 | w.get j ≠ 0 ∧ before j l}.ncard
    (∑ l, share e w l) = e ∧
    leftover < {j : Fin 12 | w.get j ≠ 0}.ncard ∧
    (∀ l, w.get l = 0 → share e w l = 0) ∧
    (∀ l, w.get l ≠ 0 → rank l < leftover → share e w l = floorOf l + 1) ∧
    (∀ l, w.get l ≠ 0 → leftover ≤ rank l → share e w l = floorOf l) ∧
    (∀ l, e * w.get l < (share e w l + 1) * total ∧ share e w l * total < e * w.get l + total) ∧
    (∀ j l, w.get j < w.get l → share e w j ≤ share e w l) ∧
    (e = 0 → ∀ l, share e w l = 0)

/-- FURNACE SPLIT (R116, R119, R120): each furnace entry takes its pull; with a pull above 0 its released energy is attributed
whole and every line takes its share, otherwise it goes whole to no-pull and no line takes a share. That a pull above 0 and below the
furnace's minimum is split so, against a sentence of R136, is the model's reading (log entry 41, DEDUCED). -/
def Obligations.FurnaceSplitAttributesTheRelease : Prop :=
  ∀ (s : State) (i : Fin 2) (x : ResultTable), s.ctrl.setWith .computing = some i → s.engine.phase = .queued →
    s.working = some x →
    let m := s.plant.active
    let weight (f : Fin 4) (l : Fin 12) : Nat :=
      if (m.lines.get l).enabled = true ∧ (m.lines.get l).furnace = f then s.engine.acc.gross.get l else 0
    ∃ y : ResultTable,
      exec .furnaceSplit s =
        .next { s with engine := { s.engine with phase := .furnaceSplit }, working := some y } ∧
      y.header = x.header ∧ y.points = x.points ∧ y.pools = x.pools ∧ y.plant = x.plant ∧
      (∀ f, x.furnaces.get f = none → y.furnaces.get f = none) ∧
      (∀ f r, x.furnaces.get f = some r →
        let pull := ∑ l, weight f l
        y.furnaces.get f = some { r with
          pull := pull
          attributed := if pull = 0 then .zero else r.released
          noPull := if pull = 0 then r.released else .zero }) ∧
      (∀ l, x.lines.get l = none ∨ x.furnaces.get (m.lines.get l).furnace = none → y.lines.get l = x.lines.get l) ∧
      ∀ l r q, x.lines.get l = some r → x.furnaces.get (m.lines.get l).furnace = some q →
        let f := (m.lines.get l).furnace
        let takesPart : Bool := decide (weight f l ≠ 0 ∧ (s.engine.released.get f).records ≠ 0)
        y.lines.get l = some { r with
          furnaceShare := Kj.ofFn fun c => share (q.released.get c) (Tab.ofFn (weight f)) l
          quality := r.quality.union (if takesPart then (s.engine.released.get f).quality else .empty) }

/-- POOL SPLIT (R121, R122): each enabled pool's metered energy is shared whole over the taking-part lines of its basis, or goes
whole to unattributed; each line takes the sum of its pool shares; the plant takes the sum of the unattributed. -/
def Obligations.PoolSplitSharesTheMetered : Prop :=
  ∀ (s : State) (i : Fin 2) (x : ResultTable), s.ctrl.setWith .computing = some i → s.engine.phase = .furnaceSplit →
    s.working = some x →
    let m := s.plant.active
    let a := s.engine.acc
    let weight (q : Fin 4) (l : Fin 12) : Nat :=
      if (m.lines.get l).enabled then
        match (m.pools.get q).basis with
        | .gross => a.gross.get l
        | .pack => a.packed.get l
        | .fixed => if s.engine.lineStates.get l = .off then 0 else (m.lines.get l).weights.get q
      else 0
    let part (q : Fin 4) (l : Fin 12) (c : Carrier) : Nat :=
      if (m.pools.get q).enabled then share ((a.poolMetered.get q).get c) (Tab.ofFn (weight q)) l else 0
    ∃ y : ResultTable,
      exec .poolSplit s = .next { s with engine := { s.engine with phase := .poolSplit }, working := some y } ∧
      y.header = x.header ∧ y.points = x.points ∧ y.furnaces = x.furnaces ∧
      (∀ q, (m.pools.get q).enabled = false → y.pools.get q = none) ∧
      (∀ q, (m.pools.get q).enabled = true → y.pools.get q = some
        (if (∑ l, weight q l) = 0 then
          ⟨(m.pools.get q).basis, a.poolMetered.get q, .zero, a.poolMetered.get q, a.poolQuality.get q⟩
        else ⟨(m.pools.get q).basis, a.poolMetered.get q, a.poolMetered.get q, .zero, a.poolQuality.get q⟩)) ∧
      (∀ l, x.lines.get l = none → y.lines.get l = none) ∧
      (∀ l r, x.lines.get l = some r → ∃ r', y.lines.get l = some r' ∧
        (∀ c, r'.poolShare.get c = r.poolShare.get c + ∑ q, part q l c) ∧
        r' = { r with poolShare := r'.poolShare, quality := r'.quality } ∧
        ∀ flag : Quality → Bool, flag ∈ [Quality.estimated, Quality.incomplete, Quality.implausible, Quality.manual, Quality.saturated] →
          (flag r'.quality = true ↔ flag r.quality = true ∨
            ∃ q, (m.pools.get q).enabled = true ∧ flag (a.poolQuality.get q) = true ∧ ∃ c, part q l c ≠ 0)) ∧
      y.plant = { x.plant with unattributed := y.plant.unattributed } ∧
      ∀ c, y.plant.unattributed.get c =
        ∑ q, if (m.pools.get q).enabled = true ∧ (∑ l, weight q l) = 0 then (a.poolMetered.get q).get c else 0

/-- The specific energy (R132), with its two reserved values (R133, R134): no figure below the minimum, else the quotient rounded
to the nearest with a half up, clamped. -/
def Obligations.SpecificEnergyRoundsToTheNearest : Prop :=
  ∀ e m minKg : Nat, 1 ≤ minKg →
    (m < minKg * 10000 → seOf e m minKg = 16777215) ∧
    (minKg * 10000 ≤ m →
      let q := (e * 100000 + m / 2) / m
      seOf e m minKg = (if 16777214 < q then 16777214 else q) ∧
      2 * (q * m) ≤ 2 * (e * 100000) + m ∧ 2 * (e * 100000) < 2 * (q * m) + m)

/-- TOTALS STAGE (R123 to R125, R134 to R137): every line, furnace and plant entry of the working copy is completed with its
energies, its specific energies on its own masses and minima, and its quality; the SATURATED finding is set exactly where it was or
some figure is clamped (R134). -/
def Obligations.TotalsStageCompletesTheEntries : Prop :=
  ∀ (s : State) (i : Fin 2) (x : ResultTable), s.ctrl.setWith .computing = some i → s.engine.phase = .poolSplit →
    s.working = some x →
    let a := s.engine.acc
    let clamps (e m k : Nat) : Bool := decide (k * 10000 ≤ m ∧ 16777214 < (e * 100000 + m / 2) / m)
    let sum (k : Kj) : Nat := k.fuel + k.elec + k.oxy + k.aux
    let minKg := s.plant.active.global.plantMin
    ∃ y : ResultTable,
      exec .totalsStage s = .next { s with engine := { s.engine with phase := .totalled }, working := some y } ∧
      y.points = x.points ∧ y.pools = x.pools ∧
      (∀ l, x.lines.get l = none → y.lines.get l = none) ∧ (∀ f, x.furnaces.get f = none → y.furnaces.get f = none) ∧
      (∀ l r, x.lines.get l = some r →
        let total := (r.furnaceShare.add (a.lineDirect.get l)).add r.poolShare
        y.lines.get l = some { r with
          direct := a.lineDirect.get l, total := total
          seGross := seOf (sum total) r.grossMass r.minMass, sePack := seOf (sum total) r.packedMass r.minMass
          quality := (r.quality.union (a.lineQuality.get l)).withSaturated
            (clamps (sum total) r.grossMass r.minMass || clamps (sum total) r.packedMass r.minMass) }) ∧
      (∀ f r, x.furnaces.get f = some r →
        y.furnaces.get f = some { r with
          seMelt := seOf (sum r.attributed) r.pull r.minMass, seFired := seOf (sum r.metered) r.pull r.minMass
          quality := ((a.furnaceQuality.get f).union (s.engine.released.get f).quality).withSaturated
            (clamps (sum r.attributed) r.pull r.minMass || clamps (sum r.metered) r.pull r.minMass) }) ∧
      y.plant = ⟨a.plant, a.monitor, x.plant.unattributed, a.plantGross, a.plantPacked,
        seOf (sum a.plant) a.plantPacked minKg,
        a.plantQuality.withSaturated (clamps (sum a.plant) a.plantPacked minKg), a.monitorQuality, minKg⟩ ∧
      y.header = { x.header with
        findings := { x.header.findings with saturated := y.header.findings.saturated } } ∧
      (y.header.findings.saturated = true ↔ x.header.findings.saturated = true ∨
        (∃ l r, x.lines.get l = some r ∧
          let total := (r.furnaceShare.add (a.lineDirect.get l)).add r.poolShare
          (clamps (sum total) r.grossMass r.minMass = true ∨ clamps (sum total) r.packedMass r.minMass = true)) ∨
        (∃ f r, x.furnaces.get f = some r ∧
          (clamps (sum r.attributed) r.pull r.minMass = true ∨ clamps (sum r.metered) r.pull r.minMass = true)) ∨
        clamps (sum a.plant) a.plantPacked minKg = true)

/-- COMPLETION (R128, R140, R143, R147): the working copy is published with the ACTIVE bank's period number and the mark read at
this moment; the interval is added to the ACTIVE bank; the completion notices are set; then a swap where the interval is
marked; then the set is FREE and the engine idle, a WAITING set's computation starts, and a stop with no window left returns
to READY. Where a swap follows, a READ BANK RECORD may come between: it sees the interval added and the swap to come, and the
COMPLETION that then comes makes the swap and what follows (R155). The content of the FREE set (log entry 12), that the completion
after which no window is left ends the stop (log entry 17), the idle engine and the empty working copy (log entry 26), and how a
read comes between (log entry 32) are the model's. -/
def Obligations.CompletionPublishesAndBanks : Prop :=
  ∀ (s : State) (i : Fin 2), s.ctrl.setWith .computing = some i →
    let mark := (s.ctrl.sets.get i).mark
    let answersFrom (s6 : State) : Prop :=
      let s7 := match mark with
        | some c => s6.swap c
        | none => s6
      let s8 : State := { s7 with
        engine := .idle, ctrl := { s7.ctrl with sets := s7.ctrl.sets.set i .free } }
      (∀ j, s8.ctrl.setWith .waiting = some j → exec .completion s = .next (s8.startComputation j)) ∧
      (s8.ctrl.setWith .waiting = none → s.ctrl.acc = .stopping → s8.ctrl.setWith .opened = none →
        exec .completion s = .next s8.returnToReady) ∧
      (s8.ctrl.setWith .waiting = none → s.ctrl.acc ≠ .stopping ∨ s8.ctrl.setWith .opened ≠ none →
        exec .completion s = .next s8)
    (s.engine.phase = .banked → answersFrom s) ∧
    ∀ x, s.engine.phase = .totalled → s.working = some x →
      let b := s.activeBank
      let sat : Bool := x.header.findings.saturated || (b.addSaturates x s.engine.saturated)
      let done : ResultTable := { x with header := { x.header with
        period := b.period, mark := mark, findings := { x.header.findings with saturated := sat } } }
      let s1 : State := { s with
        published := some done, working := none, banks := s.banks.set s.activeIdx (b.addInterval x s.engine.saturated) }
      let s2 := s1.notify .intervalDone
      let s3 := if x.header.findings.estimate then s2.notify .estimate else s2
      let s4 := if x.header.findings.pointLost then s3.notify .pointLost else s3
      let s5 := if x.header.findings.implausible then s4.notify .implausible else s4
      let s6 := if sat then s5.notify .saturated else s5
      answersFrom s6 ∧
      (mark ≠ none → ∀ r : Transfer,
        exec (.readBankRecord ⟨r, .beforeSwap⟩) s =
          exec (.readBankRecord ⟨r, .inTurn⟩) { s6 with engine := { s6.engine with phase := .banked } })

/-- Adding an interval to a bank (R147, R148): below 48 bits every field grows by the interval's figure, counts rise by 1 where
their condition holds and wrap at 32 bits, and an absent entry adds nothing; a sum above 48 bits stays at the limit. The flag is set
exactly where it was, or a queue record saturated, or some sum of an accumulator and its figure is above 48 bits. -/
def Obligations.AddingAnIntervalGrowsTheBank : Prop :=
  ∀ (t : ResultTable) (queueSaturated : Bool) (b : Bank), b.above = false →
    let b' := b.addInterval t queueSaturated
    let limit (n : Nat) : Nat := min n 281474976710655
    b'.state = b.state ∧ b'.period = b.period ∧ b'.cause = b.cause ∧ b'.count = b.count + 1 ∧
    b'.last = t.header.interval ∧ b'.first = (if b.count = 0 then t.header.interval else b.first) ∧
    b'.above = false ∧ b'.saturated = (b.saturated || b.addSaturates t queueSaturated) ∧
    (let tooMuch (n : Nat) : Prop := 281474976710655 < n
      let sumAbove : Prop :=
        (∃ f x, t.furnaces.get f = some x ∧
          let r := b.furnaces.get f
          ((∃ c, tooMuch (r.metered.get c + x.metered.get c) ∨ tooMuch (r.attributed.get c + x.attributed.get c) ∨
            tooMuch (r.noPull.get c + x.noPull.get c) ∨ tooMuch (r.hold.get c + x.hold.get c) ∨
            tooMuch (r.heatup.get c + x.heatup.get c)) ∨ tooMuch (r.pull + x.pull))) ∨
        (∃ l x, t.lines.get l = some x ∧
          let r := b.lines.get l
          ((∃ c, tooMuch (r.furnaceShare.get c + x.furnaceShare.get c) ∨ tooMuch (r.direct.get c + x.direct.get c) ∨
            tooMuch (r.poolShare.get c + x.poolShare.get c)) ∨
            tooMuch (r.grossMass + x.grossMass) ∨ tooMuch (r.packedMass + x.packedMass))) ∨
        (∃ q x, t.pools.get q = some x ∧
          let r := b.pools.get q
          ∃ c, tooMuch (r.metered.get c + x.metered.get c) ∨ tooMuch (r.shared.get c + x.shared.get c) ∨
            tooMuch (r.unattributed.get c + x.unattributed.get c)) ∨
        (∃ c, tooMuch (b.plant.metered.get c + t.plant.metered.get c) ∨ tooMuch (b.plant.monitor.get c + t.plant.monitor.get c) ∨
          tooMuch (b.plant.unattributed.get c + t.plant.unattributed.get c)) ∨
        tooMuch (b.plant.grossMass + t.plant.grossMass) ∨ tooMuch (b.plant.packedMass + t.plant.packedMass)
      (b.addSaturates t queueSaturated = true ↔ queueSaturated = true ∨ sumAbove) ∧
      (b'.saturated = true ↔ b.saturated = true ∨ queueSaturated = true ∨ sumAbove)) ∧
    (∀ f, t.furnaces.get f = none → b'.furnaces.get f = b.furnaces.get f) ∧
    (∀ f x, t.furnaces.get f = some x →
      let r := b.furnaces.get f
      let r' := b'.furnaces.get f
      (∀ c, r'.metered.get c = limit (r.metered.get c + x.metered.get c) ∧
        r'.attributed.get c = limit (r.attributed.get c + x.attributed.get c) ∧
        r'.noPull.get c = limit (r.noPull.get c + x.noPull.get c) ∧
        r'.hold.get c = limit (r.hold.get c + x.hold.get c) ∧
        r'.heatup.get c = limit (r.heatup.get c + x.heatup.get c)) ∧
      r'.pull = limit (r.pull + x.pull) ∧ r'.atStart = r.atStart ∧
      r'.meltCount = r.meltCount + (if x.state = .melt then 1 else 0) ∧
      r'.holdCount = r.holdCount + (if x.state = .hold then 1 else 0) ∧
      r'.heatupCount = r.heatupCount + (if x.state = .heatup then 1 else 0) ∧
      r'.estimatedCount = r.estimatedCount + (if x.quality.estimated then 1 else 0) ∧
      r'.incompleteCount = r.incompleteCount + (if x.quality.incomplete then 1 else 0) ∧ r'.nowFrozen = r.nowFrozen) ∧
    (∀ l, t.lines.get l = none → b'.lines.get l = b.lines.get l) ∧
    (∀ l x, t.lines.get l = some x →
      let r := b.lines.get l
      let r' := b'.lines.get l
      (∀ c, r'.furnaceShare.get c = limit (r.furnaceShare.get c + x.furnaceShare.get c) ∧
        r'.direct.get c = limit (r.direct.get c + x.direct.get c) ∧
        r'.poolShare.get c = limit (r.poolShare.get c + x.poolShare.get c)) ∧
      r'.grossMass = limit (r.grossMass + x.grossMass) ∧ r'.packedMass = limit (r.packedMass + x.packedMass) ∧
      r'.runningCount = r.runningCount + (if x.state = .running then 1 else 0) ∧
      r'.jobChangeCount = r.jobChangeCount + (if x.state = .jobChange then 1 else 0) ∧
      r'.stoppedCount = r.stoppedCount + (if x.state = .stopped then 1 else 0) ∧
      r'.offCount = r.offCount + (if x.state = .off then 1 else 0) ∧
      r'.estimatedCount = r.estimatedCount + (if x.quality.estimated then 1 else 0) ∧
      r'.incompleteCount = r.incompleteCount + (if x.quality.incomplete then 1 else 0) ∧
      r'.implausibleCount = r.implausibleCount + (if x.quality.implausible then 1 else 0) ∧
      r'.manualCount = r.manualCount + (if x.quality.manual then 1 else 0) ∧
      r'.saturatedCount = r.saturatedCount + (if x.quality.saturated then 1 else 0)) ∧
    (∀ q, t.pools.get q = none → b'.pools.get q = b.pools.get q) ∧
    (∀ q x, t.pools.get q = some x → ∀ c,
      (b'.pools.get q).metered.get c = limit ((b.pools.get q).metered.get c + x.metered.get c) ∧
      (b'.pools.get q).shared.get c = limit ((b.pools.get q).shared.get c + x.shared.get c) ∧
      (b'.pools.get q).unattributed.get c = limit ((b.pools.get q).unattributed.get c + x.unattributed.get c)) ∧
    (∀ c, b'.plant.metered.get c = limit (b.plant.metered.get c + t.plant.metered.get c) ∧
      b'.plant.monitor.get c = limit (b.plant.monitor.get c + t.plant.monitor.get c) ∧
      b'.plant.unattributed.get c = limit (b.plant.unattributed.get c + t.plant.unattributed.get c)) ∧
    b'.plant.grossMass = limit (b.plant.grossMass + t.plant.grossMass) ∧
    b'.plant.packedMass = limit (b.plant.packedMass + t.plant.packedMass)

/-- The swap (R153): the ACTIVE bank freezes with its cause and the queues' content, the other is cleared and becomes ACTIVE with
the next period number and the queues' content at its start, and PERIOD_CLOSED is set in the three ports. -/
def Obligations.SwapFreezesAndClears : Prop :=
  ∀ (s : State) (cause : CloseCause),
    let a := s.activeIdx
    let b := s.activeBank
    let content (f : Fin 4) : Kj := queueContent (s.furnaces.get f).queue
    let frozen : Bank := { b with
      state := .frozen, cause := some cause
      furnaces := b.furnaces.mapIdx fun f r => { r with nowFrozen := content f } }
    let fresh : Bank := { Bank.cleared .active (b.period + 1) with
      furnaces := Tab.ofFn fun f => { FurnaceRecord.zero with atStart := content f } }
    ∃ banks : Tab 2 Bank, s.swap cause = { s with banks := banks, ports := s.ports.notify .periodClosed } ∧
      banks.get a = frozen ∧ banks.get (other a) = fresh ∧ (s.swap cause).activeIdx = other a ∧
      (s.swap cause).frozenIdx = some a ∧ ∀ p, ((s.swap cause).ports.get p).has .periodClosed = true

/-- The plant balance of an interval (R130): when stages 3 to 7 have run on cleared accumulators under a map that passes
COMMIT's checks, and no queue record saturated, then for every carrier the plant metered energy and the energy released from
queues together equal the lines' shares and direct energy, the furnaces' no-pull, hold and heat-up energy, the pools'
unattributed energy and the energy pushed into queues. -/
def Obligations.IntervalEnergyBalances : Prop :=
  ∀ (s : State) (i : Fin 2), s.ctrl.setWith .computing = some i → s.engine.phase = .reconciled →
    s.engine.acc = .zero → s.working ≠ none → mapCheck s.plant.active = none →
    let t := ((((s.convertStage i).queueStage i).furnaceSplitStage i).poolSplitStage i).totalsStage i
    t.engine.saturated = false →
    ∃ y, t.working = some y ∧
      (∀ c f x, y.furnaces.get f = some x → x.released.get c = x.attributed.get c + x.noPull.get c) ∧
      (∀ c q x, y.pools.get q = some x → x.metered.get c = x.shared.get c + x.unattributed.get c) ∧
      ∀ c,
        let overLines (g : LineResult → Nat) : Nat :=
          ∑ l, match y.lines.get l with | some x => g x | none => 0
        let overFurnaces (g : Fin 4 → FurnaceResult → Nat) : Nat :=
          ∑ f, match y.furnaces.get f with | some x => g f x | none => 0
        let pushed (f : Fin 4) : Nat :=
          if s.engine.furnaceStates.get f = .melt then (t.engine.acc.furnaceDirect.get f).get c else 0
        y.plant.metered.get c + overFurnaces (fun _ x => x.released.get c) =
          overLines (fun x => x.furnaceShare.get c + x.direct.get c + x.poolShare.get c) +
          overFurnaces (fun _ x => x.noPull.get c + x.hold.get c + x.heatup.get c) +
          y.plant.unattributed.get c + overFurnaces (fun f _ => pushed f)

/-! ## Laws that every step keeps -/

/-- Every law holds right after reset. That the maps are empty and the lags 0 during BOOTING, on which the laws of quarantine, ranges
and queues rest there, is the model's (log entries 4 and 5). -/
def Obligations.ResetSatisfiesEveryLaw : Prop :=
  State.reset.memoryLaw ∧ State.reset.portLaw ∧ State.reset.bankLaw ∧ State.reset.quarantineLaw ∧
  State.reset.queueLaw ∧ State.reset.rangeLaw ∧ SlotLaw State.reset ∧ State.reset.balanceLaw

/-- Every step keeps one bank ACTIVE and the other EMPTY or FROZEN with the period number before it, and every accumulator of a
bank within 48 bits (R144, R146, R148, R149). -/
def Obligations.EveryStepKeepsTheBanks : Prop :=
  ∀ s s' : State, s.bankLaw → step s = .next s' → s'.bankLaw

/-- Every step keeps a link quarantined exactly while a flag of the mask in force is set (R38). -/
def Obligations.EveryStepKeepsQuarantine : Prop :=
  ∀ s s' : State, SlotLaw s → s.quarantineLaw → step s = .next s' → s'.quarantineLaw

/-- Every step keeps the bounds: the image area's canonical form and every residue below 1 kJ (R89, R177), every port idle
or in a READ STATUS, with a buffer of 64 bytes (R160, R162, R166; that no other command's transaction is open between steps is the
model's, log entry 1),
the queues and lags within theirs (R102, R106), both maps in the ranges of R2 to R8 and the run counts within theirs (R69). -/
def Obligations.EveryStepKeepsTheBounds : Prop :=
  ∀ s s' : State, s.memoryLaw → s.portLaw → s.queueLaw → s.rangeLaw → step s = .next s' →
    s'.memoryLaw ∧ s'.portLaw ∧ s'.queueLaw ∧ s'.rangeLaw

/-- Every step keeps the slot sets' law (R49, R55, R66). That the working copy is empty exactly while the engine is idle or its
interval is published and the swap still to come is the model's (log entries 26 and 32, DESIGN CHOICE). -/
def Obligations.EveryStepKeepsTheSlotSets : Prop :=
  ∀ s s' : State, SlotLaw s → step s = .next s' → SlotLaw s'

/-- Every step keeps the furnace accounts balanced, for each furnace, carrier and bank, unless the bank's saturation flag is set
(R150). -/
def Obligations.EveryStepKeepsTheFurnaceBalance : Prop :=
  ∀ s s' : State, s.bankLaw → SlotLaw s → s.balanceLaw → step s = .next s' → s'.balanceLaw
end

