-- ==== Sys2Proof/Laws/Tab.lean ====
section
/-! SUPPORT. The small lemmas of fixed-length tables: reading what was written, tables given by a function, equality. -/

namespace Sys2Proof

variable {n : Nat} {α β : Type}

/-- Two tables that agree at every number are equal. -/
@[ext] theorem Tab.ext_get {s t : Tab n α} (h : ∀ i, s.get i = t.get i) : s = t := by
  cases s with
  | mk l hl =>
    cases t with
    | mk m hm =>
      have e : l = m := by
        apply List.ext_getElem (by rw [hl, hm])
        intro k h1 h2
        exact h ⟨k, hl ▸ h1⟩
      subst e
      rfl

@[simp] theorem Tab.get_ofFn (f : Fin n → α) (i : Fin n) : (Tab.ofFn f).get i = f i := by
  simp [Tab.get, Tab.ofFn]

@[simp] theorem Tab.get_const (a : α) (i : Fin n) : (Tab.const n a).get i = a := by
  simp [Tab.get, Tab.const]

@[simp] theorem Tab.get_mapIdx (f : Fin n → α → β) (t : Tab n α) (i : Fin n) : (t.mapIdx f).get i = f i (t.get i) := by
  simp [Tab.mapIdx]

/-- Reading a table after one value was replaced. -/
theorem Tab.get_set (t : Tab n α) (i j : Fin n) (a : α) : (t.set i a).get j = if i = j then a else t.get j := by
  simp [Tab.get, Tab.set, List.getElem_set, Fin.ext_iff]

@[simp] theorem Tab.get_set_self (t : Tab n α) (i : Fin n) (a : α) : (t.set i a).get i = a := by
  simp [Tab.get_set]

@[simp] theorem Tab.get_set_ne (t : Tab n α) {i j : Fin n} (h : i ≠ j) (a : α) : (t.set i a).get j = t.get j := by
  simp [Tab.get_set, h]

/-- Reading a table after one value was changed by a function. -/
theorem Tab.get_modify (t : Tab n α) (i j : Fin n) (f : α → α) :
    (t.modify i f).get j = if i = j then f (t.get j) else t.get j := by
  simp only [Tab.modify, Tab.get_set]
  split
  · subst_vars; rfl
  · rfl

@[simp] theorem Tab.set_get_self (t : Tab n α) (i : Fin n) : t.set i (t.get i) = t := by
  ext j
  rw [Tab.get_set]
  split
  · subst_vars; rfl
  · rfl

@[simp] theorem Tab.set_set (t : Tab n α) (i : Fin n) (a b : α) : (t.set i a).set i b = t.set i b := by
  ext j
  simp only [Tab.get_set]
  split <;> rfl

@[simp] theorem mem_indices (i : Fin n) : i ∈ indices n := List.mem_finRange i

/-- A property holds at every number exactly when the scan of the numbers says so. -/
theorem allIdx_iff (p : Fin n → Bool) : allIdx n p = true ↔ ∀ i, p i = true := by
  simp [allIdx]

/-- A property holds at some number exactly when the scan of the numbers says so. -/
theorem anyIdx_iff (p : Fin n → Bool) : anyIdx n p = true ↔ ∃ i, p i = true := by
  simp [anyIdx]

/-- The sum over the numbers is the finite sum. -/
theorem sumIdx_eq_sum (f : Fin n → Nat) : sumIdx n f = ∑ i, f i := by
  simp [sumIdx, indices, List.sum_ofFn, ← List.ofFn_eq_map]

/-- The index `k` names below `n`. -/
theorem toIdx_eq_some {k : Nat} {i : Fin n} : toIdx n k = some i ↔ k = i.val := by
  unfold toIdx
  split
  · simp only [Option.some.injEq, Fin.ext_iff]
  · have := i.isLt
    constructor
    · intro h; cases h
    · intro h; omega

theorem toIdx_eq_none {k : Nat} : toIdx n k = none ↔ n ≤ k := by
  simp [toIdx]

@[simp] theorem toIdx_val (i : Fin n) : toIdx n i.val = some i := toIdx_eq_some.mpr rfl

/-- A number outside the table names no index. -/
@[simp] theorem toIdx_of_le {k : Nat} (h : n ≤ k) : toIdx n k = none := toIdx_eq_none.mpr h

end Sys2Proof
end

