-- ==== Sys2Proof/Laws/State.lean ====
section
/-! SUPPORT. One lemma per field of the state and per named update of it: what the update leaves there. -/

namespace Sys2Proof.Machine

variable (s : State)

/-! ## `State.notify` -/

@[simp] theorem State.notify_plant (n : Notice) : (s.notify n).plant = s.plant := rfl
@[simp] theorem State.notify_links (n : Notice) : (s.notify n).links = s.links := rfl
@[simp] theorem State.notify_ctrl (n : Notice) : (s.notify n).ctrl = s.ctrl := rfl
@[simp] theorem State.notify_sources (n : Notice) : (s.notify n).sources = s.sources := rfl
@[simp] theorem State.notify_residues (n : Notice) : (s.notify n).residues = s.residues := rfl
@[simp] theorem State.notify_furnaces (n : Notice) : (s.notify n).furnaces = s.furnaces := rfl
@[simp] theorem State.notify_engine (n : Notice) : (s.notify n).engine = s.engine := rfl
@[simp] theorem State.notify_working (n : Notice) : (s.notify n).working = s.working := rfl
@[simp] theorem State.notify_published (n : Notice) : (s.notify n).published = s.published := rfl
@[simp] theorem State.notify_banks (n : Notice) : (s.notify n).banks = s.banks := rfl
@[simp] theorem State.notify_ports (n : Notice) : (s.notify n).ports = s.ports.notify n := rfl
@[simp] theorem State.notify_store (n : Notice) : (s.notify n).store = s.store := rfl
@[simp] theorem State.notify_freeIdx (n : Notice) : (s.notify n).freeIdx = s.freeIdx := rfl
@[simp] theorem State.notify_pending (n : Notice) : (s.notify n).pending = s.pending := rfl

/-! ## `State.putSet` -/

@[simp] theorem State.putSet_plant (i : Fin 2) (w : SlotSet) : (s.putSet i w).plant = s.plant := rfl
@[simp] theorem State.putSet_links (i : Fin 2) (w : SlotSet) : (s.putSet i w).links = s.links := rfl
@[simp] theorem State.putSet_ctrl (i : Fin 2) (w : SlotSet) : (s.putSet i w).ctrl = { s.ctrl with sets := s.ctrl.sets.set i w } := rfl
@[simp] theorem State.putSet_sources (i : Fin 2) (w : SlotSet) : (s.putSet i w).sources = s.sources := rfl
@[simp] theorem State.putSet_residues (i : Fin 2) (w : SlotSet) : (s.putSet i w).residues = s.residues := rfl
@[simp] theorem State.putSet_furnaces (i : Fin 2) (w : SlotSet) : (s.putSet i w).furnaces = s.furnaces := rfl
@[simp] theorem State.putSet_engine (i : Fin 2) (w : SlotSet) : (s.putSet i w).engine = s.engine := rfl
@[simp] theorem State.putSet_working (i : Fin 2) (w : SlotSet) : (s.putSet i w).working = s.working := rfl
@[simp] theorem State.putSet_published (i : Fin 2) (w : SlotSet) : (s.putSet i w).published = s.published := rfl
@[simp] theorem State.putSet_banks (i : Fin 2) (w : SlotSet) : (s.putSet i w).banks = s.banks := rfl
@[simp] theorem State.putSet_ports (i : Fin 2) (w : SlotSet) : (s.putSet i w).ports = s.ports := rfl
@[simp] theorem State.putSet_store (i : Fin 2) (w : SlotSet) : (s.putSet i w).store = s.store := rfl
@[simp] theorem State.putSet_freeIdx (i : Fin 2) (w : SlotSet) : (s.putSet i w).freeIdx = s.freeIdx := rfl
@[simp] theorem State.putSet_pending (i : Fin 2) (w : SlotSet) : (s.putSet i w).pending = s.pending := rfl

/-! ## `State.setAcc` -/

@[simp] theorem State.setAcc_plant (a : AccState) : (s.setAcc a).plant = s.plant := rfl
@[simp] theorem State.setAcc_links (a : AccState) : (s.setAcc a).links = s.links := rfl
@[simp] theorem State.setAcc_ctrl (a : AccState) : (s.setAcc a).ctrl = { s.ctrl with acc := a } := rfl
@[simp] theorem State.setAcc_sources (a : AccState) : (s.setAcc a).sources = s.sources := rfl
@[simp] theorem State.setAcc_residues (a : AccState) : (s.setAcc a).residues = s.residues := rfl
@[simp] theorem State.setAcc_furnaces (a : AccState) : (s.setAcc a).furnaces = s.furnaces := rfl
@[simp] theorem State.setAcc_engine (a : AccState) : (s.setAcc a).engine = s.engine := rfl
@[simp] theorem State.setAcc_working (a : AccState) : (s.setAcc a).working = s.working := rfl
@[simp] theorem State.setAcc_published (a : AccState) : (s.setAcc a).published = s.published := rfl
@[simp] theorem State.setAcc_banks (a : AccState) : (s.setAcc a).banks = s.banks := rfl
@[simp] theorem State.setAcc_ports (a : AccState) : (s.setAcc a).ports = s.ports := rfl
@[simp] theorem State.setAcc_store (a : AccState) : (s.setAcc a).store = s.store := rfl
@[simp] theorem State.setAcc_freeIdx (a : AccState) : (s.setAcc a).freeIdx = s.freeIdx := rfl
@[simp] theorem State.setAcc_pending (a : AccState) : (s.setAcc a).pending = s.pending := rfl

/-! ## `State.putLink` -/

@[simp] theorem State.putLink_plant (l : Fin 8) (k : Link) : (s.putLink l k).plant = s.plant := rfl
@[simp] theorem State.putLink_links (l : Fin 8) (k : Link) : (s.putLink l k).links = s.links.set l k := rfl
@[simp] theorem State.putLink_ctrl (l : Fin 8) (k : Link) : (s.putLink l k).ctrl = s.ctrl := rfl
@[simp] theorem State.putLink_sources (l : Fin 8) (k : Link) : (s.putLink l k).sources = s.sources := rfl
@[simp] theorem State.putLink_residues (l : Fin 8) (k : Link) : (s.putLink l k).residues = s.residues := rfl
@[simp] theorem State.putLink_furnaces (l : Fin 8) (k : Link) : (s.putLink l k).furnaces = s.furnaces := rfl
@[simp] theorem State.putLink_engine (l : Fin 8) (k : Link) : (s.putLink l k).engine = s.engine := rfl
@[simp] theorem State.putLink_working (l : Fin 8) (k : Link) : (s.putLink l k).working = s.working := rfl
@[simp] theorem State.putLink_published (l : Fin 8) (k : Link) : (s.putLink l k).published = s.published := rfl
@[simp] theorem State.putLink_banks (l : Fin 8) (k : Link) : (s.putLink l k).banks = s.banks := rfl
@[simp] theorem State.putLink_ports (l : Fin 8) (k : Link) : (s.putLink l k).ports = s.ports := rfl
@[simp] theorem State.putLink_store (l : Fin 8) (k : Link) : (s.putLink l k).store = s.store := rfl
@[simp] theorem State.putLink_freeIdx (l : Fin 8) (k : Link) : (s.putLink l k).freeIdx = s.freeIdx := rfl
@[simp] theorem State.putLink_pending (l : Fin 8) (k : Link) : (s.putLink l k).pending = s.pending := rfl

/-! ## `State.putFurnace` -/

@[simp] theorem State.putFurnace_plant (f : Fin 4) (x : Furnace) : (s.putFurnace f x).plant = s.plant := rfl
@[simp] theorem State.putFurnace_links (f : Fin 4) (x : Furnace) : (s.putFurnace f x).links = s.links := rfl
@[simp] theorem State.putFurnace_ctrl (f : Fin 4) (x : Furnace) : (s.putFurnace f x).ctrl = s.ctrl := rfl
@[simp] theorem State.putFurnace_sources (f : Fin 4) (x : Furnace) : (s.putFurnace f x).sources = s.sources := rfl
@[simp] theorem State.putFurnace_residues (f : Fin 4) (x : Furnace) : (s.putFurnace f x).residues = s.residues := rfl
@[simp] theorem State.putFurnace_furnaces (f : Fin 4) (x : Furnace) : (s.putFurnace f x).furnaces = s.furnaces.set f x := rfl
@[simp] theorem State.putFurnace_engine (f : Fin 4) (x : Furnace) : (s.putFurnace f x).engine = s.engine := rfl
@[simp] theorem State.putFurnace_working (f : Fin 4) (x : Furnace) : (s.putFurnace f x).working = s.working := rfl
@[simp] theorem State.putFurnace_published (f : Fin 4) (x : Furnace) : (s.putFurnace f x).published = s.published := rfl
@[simp] theorem State.putFurnace_banks (f : Fin 4) (x : Furnace) : (s.putFurnace f x).banks = s.banks := rfl
@[simp] theorem State.putFurnace_ports (f : Fin 4) (x : Furnace) : (s.putFurnace f x).ports = s.ports := rfl
@[simp] theorem State.putFurnace_store (f : Fin 4) (x : Furnace) : (s.putFurnace f x).store = s.store := rfl
@[simp] theorem State.putFurnace_freeIdx (f : Fin 4) (x : Furnace) : (s.putFurnace f x).freeIdx = s.freeIdx := rfl
@[simp] theorem State.putFurnace_pending (f : Fin 4) (x : Furnace) : (s.putFurnace f x).pending = s.pending := rfl

/-! ## `State.putBank` -/

@[simp] theorem State.putBank_plant (i : Fin 2) (b : Bank) : (s.putBank i b).plant = s.plant := rfl
@[simp] theorem State.putBank_links (i : Fin 2) (b : Bank) : (s.putBank i b).links = s.links := rfl
@[simp] theorem State.putBank_ctrl (i : Fin 2) (b : Bank) : (s.putBank i b).ctrl = s.ctrl := rfl
@[simp] theorem State.putBank_sources (i : Fin 2) (b : Bank) : (s.putBank i b).sources = s.sources := rfl
@[simp] theorem State.putBank_residues (i : Fin 2) (b : Bank) : (s.putBank i b).residues = s.residues := rfl
@[simp] theorem State.putBank_furnaces (i : Fin 2) (b : Bank) : (s.putBank i b).furnaces = s.furnaces := rfl
@[simp] theorem State.putBank_engine (i : Fin 2) (b : Bank) : (s.putBank i b).engine = s.engine := rfl
@[simp] theorem State.putBank_working (i : Fin 2) (b : Bank) : (s.putBank i b).working = s.working := rfl
@[simp] theorem State.putBank_published (i : Fin 2) (b : Bank) : (s.putBank i b).published = s.published := rfl
@[simp] theorem State.putBank_banks (i : Fin 2) (b : Bank) : (s.putBank i b).banks = s.banks.set i b := rfl
@[simp] theorem State.putBank_ports (i : Fin 2) (b : Bank) : (s.putBank i b).ports = s.ports := rfl
@[simp] theorem State.putBank_store (i : Fin 2) (b : Bank) : (s.putBank i b).store = s.store := rfl
@[simp] theorem State.putBank_freeIdx (i : Fin 2) (b : Bank) : (s.putBank i b).freeIdx = s.freeIdx := rfl
@[simp] theorem State.putBank_pending (i : Fin 2) (b : Bank) : (s.putBank i b).pending = s.pending := rfl

/-! ## `State.onPort` -/

@[simp] theorem State.onPort_plant (p : Port) (g : PortUnit → PortUnit) : (s.onPort p g).plant = s.plant := rfl
@[simp] theorem State.onPort_links (p : Port) (g : PortUnit → PortUnit) : (s.onPort p g).links = s.links := rfl
@[simp] theorem State.onPort_ctrl (p : Port) (g : PortUnit → PortUnit) : (s.onPort p g).ctrl = s.ctrl := rfl
@[simp] theorem State.onPort_sources (p : Port) (g : PortUnit → PortUnit) : (s.onPort p g).sources = s.sources := rfl
@[simp] theorem State.onPort_residues (p : Port) (g : PortUnit → PortUnit) : (s.onPort p g).residues = s.residues := rfl
@[simp] theorem State.onPort_furnaces (p : Port) (g : PortUnit → PortUnit) : (s.onPort p g).furnaces = s.furnaces := rfl
@[simp] theorem State.onPort_engine (p : Port) (g : PortUnit → PortUnit) : (s.onPort p g).engine = s.engine := rfl
@[simp] theorem State.onPort_working (p : Port) (g : PortUnit → PortUnit) : (s.onPort p g).working = s.working := rfl
@[simp] theorem State.onPort_published (p : Port) (g : PortUnit → PortUnit) : (s.onPort p g).published = s.published := rfl
@[simp] theorem State.onPort_banks (p : Port) (g : PortUnit → PortUnit) : (s.onPort p g).banks = s.banks := rfl
@[simp] theorem State.onPort_ports (p : Port) (g : PortUnit → PortUnit) : (s.onPort p g).ports = s.ports.put p (g (s.ports.get p)) := rfl
@[simp] theorem State.onPort_store (p : Port) (g : PortUnit → PortUnit) : (s.onPort p g).store = s.store := rfl
@[simp] theorem State.onPort_freeIdx (p : Port) (g : PortUnit → PortUnit) : (s.onPort p g).freeIdx = s.freeIdx := rfl
@[simp] theorem State.onPort_pending (p : Port) (g : PortUnit → PortUnit) : (s.onPort p g).pending = s.pending := rfl

/-! ## `State.setStaged` -/

@[simp] theorem State.setStaged_plant (m : PlantMap) : (s.setStaged m).plant = { s.plant with staged := m } := rfl
@[simp] theorem State.setStaged_links (m : PlantMap) : (s.setStaged m).links = s.links := rfl
@[simp] theorem State.setStaged_ctrl (m : PlantMap) : (s.setStaged m).ctrl = s.ctrl := rfl
@[simp] theorem State.setStaged_sources (m : PlantMap) : (s.setStaged m).sources = s.sources := rfl
@[simp] theorem State.setStaged_residues (m : PlantMap) : (s.setStaged m).residues = s.residues := rfl
@[simp] theorem State.setStaged_furnaces (m : PlantMap) : (s.setStaged m).furnaces = s.furnaces := rfl
@[simp] theorem State.setStaged_engine (m : PlantMap) : (s.setStaged m).engine = s.engine := rfl
@[simp] theorem State.setStaged_working (m : PlantMap) : (s.setStaged m).working = s.working := rfl
@[simp] theorem State.setStaged_published (m : PlantMap) : (s.setStaged m).published = s.published := rfl
@[simp] theorem State.setStaged_banks (m : PlantMap) : (s.setStaged m).banks = s.banks := rfl
@[simp] theorem State.setStaged_ports (m : PlantMap) : (s.setStaged m).ports = s.ports := rfl
@[simp] theorem State.setStaged_store (m : PlantMap) : (s.setStaged m).store = s.store := rfl
@[simp] theorem State.setStaged_freeIdx (m : PlantMap) : (s.setStaged m).freeIdx = s.freeIdx := rfl
@[simp] theorem State.setStaged_pending (m : PlantMap) : (s.setStaged m).pending = s.pending := rfl

/-! ## `State.setLineState` -/

@[simp] theorem State.setLineState_plant (l : Fin 12) (st : LineState) : (s.setLineState l st).plant = s.plant := rfl
@[simp] theorem State.setLineState_links (l : Fin 12) (st : LineState) : (s.setLineState l st).links = s.links := rfl
@[simp] theorem State.setLineState_ctrl (l : Fin 12) (st : LineState) : (s.setLineState l st).ctrl = { s.ctrl with lineStates := s.ctrl.lineStates.set l st } := rfl
@[simp] theorem State.setLineState_sources (l : Fin 12) (st : LineState) : (s.setLineState l st).sources = s.sources := rfl
@[simp] theorem State.setLineState_residues (l : Fin 12) (st : LineState) : (s.setLineState l st).residues = s.residues := rfl
@[simp] theorem State.setLineState_furnaces (l : Fin 12) (st : LineState) : (s.setLineState l st).furnaces = s.furnaces := rfl
@[simp] theorem State.setLineState_engine (l : Fin 12) (st : LineState) : (s.setLineState l st).engine = s.engine := rfl
@[simp] theorem State.setLineState_working (l : Fin 12) (st : LineState) : (s.setLineState l st).working = s.working := rfl
@[simp] theorem State.setLineState_published (l : Fin 12) (st : LineState) : (s.setLineState l st).published = s.published := rfl
@[simp] theorem State.setLineState_banks (l : Fin 12) (st : LineState) : (s.setLineState l st).banks = s.banks := rfl
@[simp] theorem State.setLineState_ports (l : Fin 12) (st : LineState) : (s.setLineState l st).ports = s.ports := rfl
@[simp] theorem State.setLineState_store (l : Fin 12) (st : LineState) : (s.setLineState l st).store = s.store := rfl
@[simp] theorem State.setLineState_freeIdx (l : Fin 12) (st : LineState) : (s.setLineState l st).freeIdx = s.freeIdx := rfl
@[simp] theorem State.setLineState_pending (l : Fin 12) (st : LineState) : (s.setLineState l st).pending = s.pending := rfl

/-! ## `State.setLatch` -/

@[simp] theorem State.setLatch_plant (b : Bool) : (s.setLatch b).plant = s.plant := rfl
@[simp] theorem State.setLatch_links (b : Bool) : (s.setLatch b).links = s.links := rfl
@[simp] theorem State.setLatch_ctrl (b : Bool) : (s.setLatch b).ctrl = { s.ctrl with closeLatch := b } := rfl
@[simp] theorem State.setLatch_sources (b : Bool) : (s.setLatch b).sources = s.sources := rfl
@[simp] theorem State.setLatch_residues (b : Bool) : (s.setLatch b).residues = s.residues := rfl
@[simp] theorem State.setLatch_furnaces (b : Bool) : (s.setLatch b).furnaces = s.furnaces := rfl
@[simp] theorem State.setLatch_engine (b : Bool) : (s.setLatch b).engine = s.engine := rfl
@[simp] theorem State.setLatch_working (b : Bool) : (s.setLatch b).working = s.working := rfl
@[simp] theorem State.setLatch_published (b : Bool) : (s.setLatch b).published = s.published := rfl
@[simp] theorem State.setLatch_banks (b : Bool) : (s.setLatch b).banks = s.banks := rfl
@[simp] theorem State.setLatch_ports (b : Bool) : (s.setLatch b).ports = s.ports := rfl
@[simp] theorem State.setLatch_store (b : Bool) : (s.setLatch b).store = s.store := rfl
@[simp] theorem State.setLatch_freeIdx (b : Bool) : (s.setLatch b).freeIdx = s.freeIdx := rfl
@[simp] theorem State.setLatch_pending (b : Bool) : (s.setLatch b).pending = s.pending := rfl

/-! ## `State.setStore` -/

@[simp] theorem State.setStore_plant (st : Store) : (s.setStore st).plant = s.plant := rfl
@[simp] theorem State.setStore_links (st : Store) : (s.setStore st).links = s.links := rfl
@[simp] theorem State.setStore_ctrl (st : Store) : (s.setStore st).ctrl = s.ctrl := rfl
@[simp] theorem State.setStore_sources (st : Store) : (s.setStore st).sources = s.sources := rfl
@[simp] theorem State.setStore_residues (st : Store) : (s.setStore st).residues = s.residues := rfl
@[simp] theorem State.setStore_furnaces (st : Store) : (s.setStore st).furnaces = s.furnaces := rfl
@[simp] theorem State.setStore_engine (st : Store) : (s.setStore st).engine = s.engine := rfl
@[simp] theorem State.setStore_working (st : Store) : (s.setStore st).working = s.working := rfl
@[simp] theorem State.setStore_published (st : Store) : (s.setStore st).published = s.published := rfl
@[simp] theorem State.setStore_banks (st : Store) : (s.setStore st).banks = s.banks := rfl
@[simp] theorem State.setStore_ports (st : Store) : (s.setStore st).ports = s.ports := rfl
@[simp] theorem State.setStore_store (st : Store) : (s.setStore st).store = st := rfl
@[simp] theorem State.setStore_freeIdx (st : Store) : (s.setStore st).freeIdx = s.freeIdx := rfl
@[simp] theorem State.setStore_pending (st : Store) : (s.setStore st).pending = s.pending := rfl

/-! ## `State.withPending` -/

@[simp] theorem State.withPending_plant (q : List Instr) : (s.withPending q).plant = s.plant := rfl
@[simp] theorem State.withPending_links (q : List Instr) : (s.withPending q).links = s.links := rfl
@[simp] theorem State.withPending_ctrl (q : List Instr) : (s.withPending q).ctrl = s.ctrl := rfl
@[simp] theorem State.withPending_sources (q : List Instr) : (s.withPending q).sources = s.sources := rfl
@[simp] theorem State.withPending_residues (q : List Instr) : (s.withPending q).residues = s.residues := rfl
@[simp] theorem State.withPending_furnaces (q : List Instr) : (s.withPending q).furnaces = s.furnaces := rfl
@[simp] theorem State.withPending_engine (q : List Instr) : (s.withPending q).engine = s.engine := rfl
@[simp] theorem State.withPending_working (q : List Instr) : (s.withPending q).working = s.working := rfl
@[simp] theorem State.withPending_published (q : List Instr) : (s.withPending q).published = s.published := rfl
@[simp] theorem State.withPending_banks (q : List Instr) : (s.withPending q).banks = s.banks := rfl
@[simp] theorem State.withPending_ports (q : List Instr) : (s.withPending q).ports = s.ports := rfl
@[simp] theorem State.withPending_store (q : List Instr) : (s.withPending q).store = s.store := rfl
@[simp] theorem State.withPending_freeIdx (q : List Instr) : (s.withPending q).freeIdx = s.freeIdx := rfl
@[simp] theorem State.withPending_pending (q : List Instr) : (s.withPending q).pending = q := rfl

/-! ## `State.notifyIf` -/

@[simp] theorem State.notifyIf_plant (b : Bool) (n : Notice) : (s.notifyIf b n).plant = s.plant := by cases b <;> rfl
@[simp] theorem State.notifyIf_links (b : Bool) (n : Notice) : (s.notifyIf b n).links = s.links := by cases b <;> rfl
@[simp] theorem State.notifyIf_ctrl (b : Bool) (n : Notice) : (s.notifyIf b n).ctrl = s.ctrl := by cases b <;> rfl
@[simp] theorem State.notifyIf_sources (b : Bool) (n : Notice) : (s.notifyIf b n).sources = s.sources := by cases b <;> rfl
@[simp] theorem State.notifyIf_residues (b : Bool) (n : Notice) : (s.notifyIf b n).residues = s.residues := by cases b <;> rfl
@[simp] theorem State.notifyIf_furnaces (b : Bool) (n : Notice) : (s.notifyIf b n).furnaces = s.furnaces := by cases b <;> rfl
@[simp] theorem State.notifyIf_engine (b : Bool) (n : Notice) : (s.notifyIf b n).engine = s.engine := by cases b <;> rfl
@[simp] theorem State.notifyIf_working (b : Bool) (n : Notice) : (s.notifyIf b n).working = s.working := by cases b <;> rfl
@[simp] theorem State.notifyIf_published (b : Bool) (n : Notice) : (s.notifyIf b n).published = s.published := by cases b <;> rfl
@[simp] theorem State.notifyIf_banks (b : Bool) (n : Notice) : (s.notifyIf b n).banks = s.banks := by cases b <;> rfl
theorem State.notifyIf_ports (b : Bool) (n : Notice) :
    (s.notifyIf b n).ports = if b then s.ports.notify n else s.ports := by cases b <;> rfl
@[simp] theorem State.notifyIf_store (b : Bool) (n : Notice) : (s.notifyIf b n).store = s.store := by cases b <;> rfl
@[simp] theorem State.notifyIf_freeIdx (b : Bool) (n : Notice) : (s.notifyIf b n).freeIdx = s.freeIdx := by cases b <;> rfl
@[simp] theorem State.notifyIf_pending (b : Bool) (n : Notice) : (s.notifyIf b n).pending = s.pending := by cases b <;> rfl

/-! ## Ports -/

@[simp] theorem Ports.get_put_self (p : Ports) (w : Port) (u : PortUnit) : (p.put w u).get w = u := by cases w <;> rfl

@[simp] theorem Ports.get_put_ne (p : Ports) {w v : Port} (h : w ≠ v) (u : PortUnit) : (p.put w u).get v = p.get v := by
  cases w <;> cases v <;> first | rfl | exact absurd rfl h

@[simp] theorem Ports.put_put (p : Ports) (w : Port) (u v : PortUnit) : (p.put w u).put w v = p.put w v := by cases w <;> rfl

@[simp] theorem Ports.put_get_self (p : Ports) (w : Port) : p.put w (p.get w) = p := by cases w <;> rfl

@[simp] theorem Ports.notify_get (p : Ports) (n : Notice) (w : Port) : (p.notify n).get w = (p.get w).notify n := by
  cases w <;> rfl

/-- Two sets of ports that agree at each port are equal. -/
theorem Ports.ext_get {p q : Ports} (h : ∀ w, p.get w = q.get w) : p = q := by
  cases p; cases q
  have hm := h .m; have hf := h .f; have he := h .e
  simp only [Ports.get] at hm hf he
  subst hm hf he; rfl

@[simp] theorem PortUnit.notify_lastResult (n : Notice) (u : PortUnit) : (u.notify n).lastResult = u.lastResult := rfl
@[simp] theorem PortUnit.notify_buffer (n : Notice) (u : PortUnit) : (u.notify n).buffer = u.buffer := rfl
@[simp] theorem PortUnit.notify_detail (n : Notice) (u : PortUnit) : (u.notify n).detail = u.detail := rfl
@[simp] theorem PortUnit.notify_mask (n : Notice) (u : PortUnit) : (u.notify n).mask = u.mask := rfl
@[simp] theorem PortUnit.notify_sent (n : Notice) (u : PortUnit) : (u.notify n).sent = u.sent := rfl
@[simp] theorem PortUnit.notify_decoder (n : Notice) (u : PortUnit) : (u.notify n).decoder = u.decoder := rfl

/-! ## Links -/

@[simp] theorem PerKind.get_const {α : Type} (a : α) (e : ErrorKind) : (PerKind.const a).get e = a := by cases e <;> rfl

@[simp] theorem PerKind.get_put_self {α : Type} (k : PerKind α) (e : ErrorKind) (a : α) : (k.put e a).get e = a := by
  cases e <;> rfl

@[simp] theorem PerKind.get_put_ne {α : Type} (k : PerKind α) {e d : ErrorKind} (h : e ≠ d) (a : α) :
    (k.put e a).get d = k.get d := by
  cases e <;> cases d <;> first | rfl | exact absurd rfl h

/-! ## Energies -/

@[simp] theorem Kj.get_zero (c : Carrier) : Kj.zero.get c = 0 := by cases c <;> rfl
@[simp] theorem Kj.get_add (a b : Kj) (c : Carrier) : (a.add b).get c = a.get c + b.get c := by cases c <;> rfl
@[simp] theorem Kj.get_ofFn (f : Carrier → Nat) (c : Carrier) : (Kj.ofFn f).get c = f c := by cases c <;> rfl
@[simp] theorem Kj.get_limit (m : Nat) (k : Kj) (c : Carrier) : (k.limit m).get c = min (k.get c) m := by cases c <;> rfl

/-- Two energies that agree at every carrier are equal. -/
@[ext] theorem Kj.ext_get {a b : Kj} (h : ∀ c, a.get c = b.get c) : a = b := by
  cases a; cases b
  have h1 := h .fuel; have h2 := h .elec; have h3 := h .oxy; have h4 := h .aux
  simp only [Kj.get] at h1 h2 h3 h4
  subst h1 h2 h3 h4; rfl

/-- Every energy is zero plus itself, and sums may be grouped and swapped. -/
@[simp] theorem Kj.zero_add (a : Kj) : Kj.zero.add a = a := by ext c; simp
@[simp] theorem Kj.add_zero (a : Kj) : a.add Kj.zero = a := by ext c; simp
theorem Kj.add_comm (a b : Kj) : a.add b = b.add a := by ext c; simp [Nat.add_comm]
theorem Kj.add_assoc (a b c : Kj) : (a.add b).add c = a.add (b.add c) := by ext d; simp [Nat.add_assoc]

/-- The sum of a list of energies, at one carrier. -/
theorem Kj.get_sum (ks : List Kj) (c : Carrier) : (Kj.sum ks).get c = (ks.map fun k => k.get c).sum := by
  induction ks with
  | nil => simp [Kj.sum]
  | cons k ks ih => simp only [Kj.sum, List.foldr_cons, List.map_cons, List.sum_cons] at *; simp [ih]

end Sys2Proof.Machine
end

