-- ==== Sys2Proof/Laws/Ports.lean ====
section
/-! SUPPORT. What a whole transaction of a port can do, said once: a write or read command refused by the port, refused by its
owner, or taken (R161 to R166). -/

namespace Sys2Proof.Machine

/-! ## Codes and the decoder of command bytes (13.4) -/

/-- A command's byte names that command. -/
@[simp] theorem commandOfCode_commandCode (c : Command) : commandOfCode (commandCode c) = some c := by
  cases c <;> decide

/-- The number a byte holds: a number below 256 reads back from its byte. -/
theorem byteOf_toNat {x : Nat} (h : x < 256) : (byteOf x).toNat = x := by
  simp [byteOf, Nat.mod_eq_of_lt h]

/-! ## Write commands -/

/-- A write command during BOOTING (R165 check 2). -/
theorem writeTransaction_booting {c : Command} {t : Transfer} {o : Owner} {s : State} (h : s.ctrl.acc = .booting) :
    writeTransaction c t o s = s.answered t.port .refusedBusy (s.writeSent t.port t.bytes.length) := by
  simp only [writeTransaction, judgeWrite, h, if_true]
  rfl

/-- A write command without the right to it (R165 check 3). -/
theorem writeTransaction_rights {c : Command} {t : Transfer} {o : Owner} {s : State} (h : s.ctrl.acc ≠ .booting)
    (hr : hasRight t.port c = false) :
    writeTransaction c t o s = s.answered t.port .refusedRights (s.writeSent t.port t.bytes.length) := by
  simp only [writeTransaction, judgeWrite, h, hr, if_false, Bool.not_false, if_true]
  rfl

/-- A write command of the wrong length (R165 check 4). -/
theorem writeTransaction_form {c : Command} {t : Transfer} {o : Owner} {s : State} (h : s.ctrl.acc ≠ .booting)
    (hr : hasRight t.port c = true) (hl : lengthSuits c (1 + t.bytes.length) = false) :
    writeTransaction c t o s = s.answered t.port .refusedForm (s.writeSent t.port t.bytes.length) := by
  simp only [writeTransaction, judgeWrite, transactionOf, h, hr, hl, if_false, Bool.not_false, Bool.not_true, if_true,
    Bool.false_eq_true]
  rfl

/-- A write command that reaches its owner (R165 check 5). -/
theorem writeTransaction_owner {c : Command} {t : Transfer} {o : Owner} {s : State} (h : s.ctrl.acc ≠ .booting)
    (hr : hasRight t.port c = true) (hl : lengthSuits c (1 + t.bytes.length) = true) :
    writeTransaction c t o s =
      (o (t.bytes.take 97) s).1.onPort t.port fun u =>
        (u.record (o (t.bytes.take 97) s).2).close (s.writeSent t.port t.bytes.length) := by
  simp only [writeTransaction, judgeWrite, transactionOf, h, hr, hl, if_false, Bool.not_true, Bool.false_eq_true]
  rfl

/-- A write command its owner answers with a result. -/
theorem writeTransaction_result {c : Command} {t : Transfer} {o : Owner} {s s' : State} {r : Result}
    (h : s.ctrl.acc ≠ .booting) (hr : hasRight t.port c = true) (hl : lengthSuits c (1 + t.bytes.length) = true)
    (ho : o (t.bytes.take 97) s = (s', .result r)) :
    writeTransaction c t o s = s'.answered t.port r (s.writeSent t.port t.bytes.length) := by
  rw [writeTransaction_owner h hr hl, ho]
  rfl

/-- A write command its owner refuses with REFUSED_RANGE (R169). -/
theorem writeTransaction_range {c : Command} {t : Transfer} {o : Owner} {s s' : State} {d : Detail}
    (h : s.ctrl.acc ≠ .booting) (hr : hasRight t.port c = true) (hl : lengthSuits c (1 + t.bytes.length) = true)
    (ho : o (t.bytes.take 97) s = (s', .range d)) :
    writeTransaction c t o s = s'.answeredRange t.port d (s.writeSent t.port t.bytes.length) := by
  rw [writeTransaction_owner h hr hl, ho]
  rfl

/-! ## Read commands -/

/-- A read cut short of its last selector byte (R166). -/
theorem readTransaction_short {c : Command} {t : Transfer} {b : Bool} {f : List Byte → State → Copy} {s : State}
    (hl : lengthSuits c (1 + t.bytes.length) = false) :
    readTransaction c t b f s = s.answered t.port .refusedForm (s.writeSent t.port t.bytes.length) := by
  simp only [readTransaction, transactionOf, hl, Bool.false_eq_true, if_false]
  rfl

/-- A read refused with BOOTING (R166, R168). -/
theorem readTransaction_booting {c : Command} {t : Transfer} {f : List Byte → State → Copy} {s : State}
    (h : s.ctrl.acc = .booting) (hl : lengthSuits c (1 + t.bytes.length) = true) :
    readTransaction c t false f s = s.readRefused t.port .refusedBusy (selectorCount c) (t.bytes.length - selectorCount c) := by
  simp only [readTransaction, transactionOf, hl, judgeRead, h, if_true, Bool.not_false, and_self]
  rfl

/-- A read that reaches its owner: the port afterwards (R166). -/
theorem readTransaction_owner {c : Command} {t : Transfer} {b : Bool} {f : List Byte → State → Copy} {s : State}
    (h : s.ctrl.acc ≠ .booting ∨ b = true) (hl : lengthSuits c (1 + t.bytes.length) = true) :
    readTransaction c t b f s = s.onPort t.port fun u =>
      (u.afterRead (f t.bytes s)).close
        (s.readSent t.port (selectorCount c) (t.bytes.length - selectorCount c) (u.afterRead (f t.bytes s)).buffer) := by
  have hb : judgeRead b (f t.bytes s) s = f t.bytes s := by
    unfold judgeRead
    rw [if_neg]
    rintro ⟨h1, h2⟩
    rcases h with h | h
    · exact h h1
    · subst h; simp at h2
  simp only [readTransaction, transactionOf, hl, if_true, hb]
  rfl

/-- A read that makes its copy (R166). -/
theorem readTransaction_copied {c : Command} {t : Transfer} {b : Bool} {f : List Byte → State → Copy} {s : State}
    {copy : List Byte} (h : s.ctrl.acc ≠ .booting ∨ b = true) (hl : lengthSuits c (1 + t.bytes.length) = true)
    (hc : f t.bytes s = .ok copy) :
    readTransaction c t b f s = s.copied t.port (selectorCount c) (t.bytes.length - selectorCount c) copy := by
  rw [readTransaction_owner h hl, hc]
  rfl

/-- A read its owner refuses with a result (R166). -/
theorem readTransaction_refused {c : Command} {t : Transfer} {b : Bool} {f : List Byte → State → Copy} {s : State}
    {r : Result} (h : s.ctrl.acc ≠ .booting ∨ b = true) (hl : lengthSuits c (1 + t.bytes.length) = true)
    (hc : f t.bytes s = .error (.result r)) :
    readTransaction c t b f s = s.readRefused t.port r (selectorCount c) (t.bytes.length - selectorCount c) := by
  rw [readTransaction_owner h hl, hc]
  rfl

/-- A read its owner refuses with REFUSED_RANGE (R166, R169). -/
theorem readTransaction_range {c : Command} {t : Transfer} {b : Bool} {f : List Byte → State → Copy} {s : State}
    {d : Detail} (h : s.ctrl.acc ≠ .booting ∨ b = true) (hl : lengthSuits c (1 + t.bytes.length) = true)
    (hc : f t.bytes s = .error (.range d)) :
    readTransaction c t b f s = s.readRefusedRange t.port d (selectorCount c) (t.bytes.length - selectorCount c) := by
  rw [readTransaction_owner h hl, hc]
  rfl

/-! ## What SDO carries (R161) -/

/-- The bytes sent in a transaction of a write command, however it is answered. -/
theorem writeTransaction_sent (c : Command) (t : Transfer) (o : Owner) (s : State) :
    ((writeTransaction c t o s).ports.get t.port).sent = s.writeSent t.port t.bytes.length := by
  simp [writeTransaction, State.onPort, PortUnit.close, State.writeSent]

/-- A read command has its length once its last selector byte has come (R166). -/
theorem lengthSuits_read {c : Command} (h : isWrite c = false) (n : Nat) :
    lengthSuits c (1 + n) = true ↔ selectorCount c ≤ n := by
  cases c <;> simp [isWrite, lengthSuits, selectorCount] at * <;> omega

/-- The bytes sent in a transaction of a read command, however it is answered: data only after the last selector byte. -/
theorem readTransaction_sent (c : Command) (t : Transfer) (b : Bool) (f : List Byte → State → Copy) (s : State) :
    ((readTransaction c t b f s).ports.get t.port).sent =
      if lengthSuits c (1 + t.bytes.length) then
        s.readSent t.port (selectorCount c) (t.bytes.length - selectorCount c)
          ((readTransaction c t b f s).ports.get t.port).buffer
      else s.writeSent t.port t.bytes.length := by
  by_cases h : lengthSuits c (1 + t.bytes.length) = true
  · simp [readTransaction, transactionOf, h, State.onPort, PortUnit.close, State.readSent, shiftedOut]
  · simp [readTransaction, transactionOf, h, State.onPort, PortUnit.close, State.writeSent]

/-! ## The rest of the state under a transaction -/

/-- Any property that holds of what the owner answers with, and that no change of one port breaks, holds after the whole
write transaction. -/
theorem writeTransaction_preserves {P : State → Prop} {c : Command} {t : Transfer} {o : Owner} {s : State} (h : P s)
    (ho : s.ctrl.acc ≠ .booting → P (o (t.bytes.take 97) s).1)
    (hp : ∀ (s : State) (a : Answer) (sent : List Byte), P s → P (s.onPort t.port fun u => (u.record a).close sent)) :
    P (writeTransaction c t o s) := by
  unfold writeTransaction judgeWrite
  by_cases hb : s.ctrl.acc = .booting
  · simp only [hb, if_true]; exact hp _ _ _ h
  · simp only [hb, if_false]
    split
    · exact hp _ _ _ h
    · split
      · exact hp _ _ _ h
      · exact hp _ _ _ (ho hb)

/-- A read transaction changes the sender's port alone. -/
theorem readTransaction_eq_onPort (c : Command) (t : Transfer) (b : Bool) (f : List Byte → State → Copy) (s : State) :
    ∃ g, readTransaction c t b f s = s.onPort t.port g := by
  unfold readTransaction
  split <;> exact ⟨_, rfl⟩

end Sys2Proof.Machine
end

