-- ==== Sys2Proof/Laws/Frames.lean ====
section
/-! SUPPORT. What each shared operation leaves alone: one lemma for every operation and every field of the state that it never
changes. -/

namespace Sys2Proof.Machine

/-- What no step of a fold changes, the fold does not change. -/
theorem foldl_keeps {α γ : Type} (g : State → γ) {f : State → α → State} (h : ∀ s a, g (f s a) = g s) (l : List α) (s : State) :
    g (l.foldl f s) = g s := by
  induction l generalizing s with
  | nil => rfl
  | cons a l ih => rw [List.foldl_cons, ih, h]

/-- What every step of a fold keeps true, the fold keeps true. -/
theorem foldl_preserves {α : Type} {P : State → Prop} {f : State → α → State} (h : ∀ s a, P s → P (f s a)) (l : List α)
    {s : State} (hs : P s) : P (l.foldl f s) := by
  induction l generalizing s with
  | nil => exact hs
  | cons a l ih => exact ih (h s a hs)

variable (s : State)

/-! ## `State.dropDelivery` -/

@[simp] theorem State.dropDelivery_plant (l : Fin 8) : (s.dropDelivery l).plant = s.plant := by unfold State.dropDelivery; split <;> rfl
@[simp] theorem State.dropDelivery_links (l : Fin 8) : (s.dropDelivery l).links = s.links := by unfold State.dropDelivery; split <;> rfl
@[simp] theorem State.dropDelivery_sources (l : Fin 8) : (s.dropDelivery l).sources = s.sources := by unfold State.dropDelivery; split <;> rfl
@[simp] theorem State.dropDelivery_residues (l : Fin 8) : (s.dropDelivery l).residues = s.residues := by unfold State.dropDelivery; split <;> rfl
@[simp] theorem State.dropDelivery_furnaces (l : Fin 8) : (s.dropDelivery l).furnaces = s.furnaces := by unfold State.dropDelivery; split <;> rfl
@[simp] theorem State.dropDelivery_engine (l : Fin 8) : (s.dropDelivery l).engine = s.engine := by unfold State.dropDelivery; split <;> rfl
@[simp] theorem State.dropDelivery_working (l : Fin 8) : (s.dropDelivery l).working = s.working := by unfold State.dropDelivery; split <;> rfl
@[simp] theorem State.dropDelivery_published (l : Fin 8) : (s.dropDelivery l).published = s.published := by unfold State.dropDelivery; split <;> rfl
@[simp] theorem State.dropDelivery_banks (l : Fin 8) : (s.dropDelivery l).banks = s.banks := by unfold State.dropDelivery; split <;> rfl
@[simp] theorem State.dropDelivery_ports (l : Fin 8) : (s.dropDelivery l).ports = s.ports := by unfold State.dropDelivery; split <;> rfl
@[simp] theorem State.dropDelivery_store (l : Fin 8) : (s.dropDelivery l).store = s.store := by unfold State.dropDelivery; split <;> rfl
@[simp] theorem State.dropDelivery_freeIdx (l : Fin 8) : (s.dropDelivery l).freeIdx = s.freeIdx := by unfold State.dropDelivery; split <;> rfl
@[simp] theorem State.dropDelivery_pending (l : Fin 8) : (s.dropDelivery l).pending = s.pending := by unfold State.dropDelivery; split <;> rfl

/-! ## `State.rederive` -/

@[simp] theorem State.rederive_plant (l : Fin 8) : (s.rederive l).plant = s.plant := by unfold State.rederive; dsimp only; split <;> simp
@[simp] theorem State.rederive_sources (l : Fin 8) : (s.rederive l).sources = s.sources := by unfold State.rederive; dsimp only; split <;> simp
@[simp] theorem State.rederive_residues (l : Fin 8) : (s.rederive l).residues = s.residues := by unfold State.rederive; dsimp only; split <;> simp
@[simp] theorem State.rederive_furnaces (l : Fin 8) : (s.rederive l).furnaces = s.furnaces := by unfold State.rederive; dsimp only; split <;> simp
@[simp] theorem State.rederive_engine (l : Fin 8) : (s.rederive l).engine = s.engine := by unfold State.rederive; dsimp only; split <;> simp
@[simp] theorem State.rederive_working (l : Fin 8) : (s.rederive l).working = s.working := by unfold State.rederive; dsimp only; split <;> simp
@[simp] theorem State.rederive_published (l : Fin 8) : (s.rederive l).published = s.published := by unfold State.rederive; dsimp only; split <;> simp
@[simp] theorem State.rederive_banks (l : Fin 8) : (s.rederive l).banks = s.banks := by unfold State.rederive; dsimp only; split <;> simp
@[simp] theorem State.rederive_ports (l : Fin 8) : (s.rederive l).ports = s.ports := by unfold State.rederive; dsimp only; split <;> simp
@[simp] theorem State.rederive_store (l : Fin 8) : (s.rederive l).store = s.store := by unfold State.rederive; dsimp only; split <;> simp
@[simp] theorem State.rederive_freeIdx (l : Fin 8) : (s.rederive l).freeIdx = s.freeIdx := by unfold State.rederive; dsimp only; split <;> simp
@[simp] theorem State.rederive_pending (l : Fin 8) : (s.rederive l).pending = s.pending := by unfold State.rederive; dsimp only; split <;> simp

/-! ## `State.rederiveAll` -/

@[simp] theorem State.rederiveAll_plant : (s.rederiveAll).plant = s.plant := foldl_keeps (fun s : State => s.plant) (fun s l => by simp) _ _
@[simp] theorem State.rederiveAll_sources : (s.rederiveAll).sources = s.sources := foldl_keeps (fun s : State => s.sources) (fun s l => by simp) _ _
@[simp] theorem State.rederiveAll_residues : (s.rederiveAll).residues = s.residues := foldl_keeps (fun s : State => s.residues) (fun s l => by simp) _ _
@[simp] theorem State.rederiveAll_furnaces : (s.rederiveAll).furnaces = s.furnaces := foldl_keeps (fun s : State => s.furnaces) (fun s l => by simp) _ _
@[simp] theorem State.rederiveAll_engine : (s.rederiveAll).engine = s.engine := foldl_keeps (fun s : State => s.engine) (fun s l => by simp) _ _
@[simp] theorem State.rederiveAll_working : (s.rederiveAll).working = s.working := foldl_keeps (fun s : State => s.working) (fun s l => by simp) _ _
@[simp] theorem State.rederiveAll_published : (s.rederiveAll).published = s.published := foldl_keeps (fun s : State => s.published) (fun s l => by simp) _ _
@[simp] theorem State.rederiveAll_banks : (s.rederiveAll).banks = s.banks := foldl_keeps (fun s : State => s.banks) (fun s l => by simp) _ _
@[simp] theorem State.rederiveAll_ports : (s.rederiveAll).ports = s.ports := foldl_keeps (fun s : State => s.ports) (fun s l => by simp) _ _
@[simp] theorem State.rederiveAll_store : (s.rederiveAll).store = s.store := foldl_keeps (fun s : State => s.store) (fun s l => by simp) _ _
@[simp] theorem State.rederiveAll_freeIdx : (s.rederiveAll).freeIdx = s.freeIdx := foldl_keeps (fun s : State => s.freeIdx) (fun s l => by simp) _ _
@[simp] theorem State.rederiveAll_pending : (s.rederiveAll).pending = s.pending := foldl_keeps (fun s : State => s.pending) (fun s l => by simp) _ _

/-! ## `State.clearLink` -/

@[simp] theorem State.clearLink_plant (l : Fin 8) : (s.clearLink l).plant = s.plant := by simp [State.clearLink]
@[simp] theorem State.clearLink_sources (l : Fin 8) : (s.clearLink l).sources = s.sources := by simp [State.clearLink]
@[simp] theorem State.clearLink_residues (l : Fin 8) : (s.clearLink l).residues = s.residues := by simp [State.clearLink]
@[simp] theorem State.clearLink_furnaces (l : Fin 8) : (s.clearLink l).furnaces = s.furnaces := by simp [State.clearLink]
@[simp] theorem State.clearLink_engine (l : Fin 8) : (s.clearLink l).engine = s.engine := by simp [State.clearLink]
@[simp] theorem State.clearLink_working (l : Fin 8) : (s.clearLink l).working = s.working := by simp [State.clearLink]
@[simp] theorem State.clearLink_published (l : Fin 8) : (s.clearLink l).published = s.published := by simp [State.clearLink]
@[simp] theorem State.clearLink_banks (l : Fin 8) : (s.clearLink l).banks = s.banks := by simp [State.clearLink]
@[simp] theorem State.clearLink_ports (l : Fin 8) : (s.clearLink l).ports = s.ports := by simp [State.clearLink]
@[simp] theorem State.clearLink_store (l : Fin 8) : (s.clearLink l).store = s.store := by simp [State.clearLink]
@[simp] theorem State.clearLink_freeIdx (l : Fin 8) : (s.clearLink l).freeIdx = s.freeIdx := by simp [State.clearLink]
@[simp] theorem State.clearLink_pending (l : Fin 8) : (s.clearLink l).pending = s.pending := by simp [State.clearLink]

/-! ## `State.errorEvent` -/

@[simp] theorem State.errorEvent_plant (l : Fin 8) (e : ErrorKind) : (s.errorEvent l e).plant = s.plant := by simp [State.errorEvent]
@[simp] theorem State.errorEvent_sources (l : Fin 8) (e : ErrorKind) : (s.errorEvent l e).sources = s.sources := by simp [State.errorEvent]
@[simp] theorem State.errorEvent_residues (l : Fin 8) (e : ErrorKind) : (s.errorEvent l e).residues = s.residues := by simp [State.errorEvent]
@[simp] theorem State.errorEvent_furnaces (l : Fin 8) (e : ErrorKind) : (s.errorEvent l e).furnaces = s.furnaces := by simp [State.errorEvent]
@[simp] theorem State.errorEvent_engine (l : Fin 8) (e : ErrorKind) : (s.errorEvent l e).engine = s.engine := by simp [State.errorEvent]
@[simp] theorem State.errorEvent_working (l : Fin 8) (e : ErrorKind) : (s.errorEvent l e).working = s.working := by simp [State.errorEvent]
@[simp] theorem State.errorEvent_published (l : Fin 8) (e : ErrorKind) : (s.errorEvent l e).published = s.published := by simp [State.errorEvent]
@[simp] theorem State.errorEvent_banks (l : Fin 8) (e : ErrorKind) : (s.errorEvent l e).banks = s.banks := by simp [State.errorEvent]
@[simp] theorem State.errorEvent_store (l : Fin 8) (e : ErrorKind) : (s.errorEvent l e).store = s.store := by simp [State.errorEvent]
@[simp] theorem State.errorEvent_freeIdx (l : Fin 8) (e : ErrorKind) : (s.errorEvent l e).freeIdx = s.freeIdx := by simp [State.errorEvent]
@[simp] theorem State.errorEvent_pending (l : Fin 8) (e : ErrorKind) : (s.errorEvent l e).pending = s.pending := by simp [State.errorEvent]

/-! ## `State.deliver` -/

@[simp] theorem State.deliver_plant (l : Fin 8) (d : Delivery) : (s.deliver l d).plant = s.plant := by
  unfold State.deliver; repeat' split
  all_goals simp
@[simp] theorem State.deliver_sources (l : Fin 8) (d : Delivery) : (s.deliver l d).sources = s.sources := by
  unfold State.deliver; repeat' split
  all_goals simp
@[simp] theorem State.deliver_residues (l : Fin 8) (d : Delivery) : (s.deliver l d).residues = s.residues := by
  unfold State.deliver; repeat' split
  all_goals simp
@[simp] theorem State.deliver_furnaces (l : Fin 8) (d : Delivery) : (s.deliver l d).furnaces = s.furnaces := by
  unfold State.deliver; repeat' split
  all_goals simp
@[simp] theorem State.deliver_engine (l : Fin 8) (d : Delivery) : (s.deliver l d).engine = s.engine := by
  unfold State.deliver; repeat' split
  all_goals simp
@[simp] theorem State.deliver_working (l : Fin 8) (d : Delivery) : (s.deliver l d).working = s.working := by
  unfold State.deliver; repeat' split
  all_goals simp
@[simp] theorem State.deliver_published (l : Fin 8) (d : Delivery) : (s.deliver l d).published = s.published := by
  unfold State.deliver; repeat' split
  all_goals simp
@[simp] theorem State.deliver_banks (l : Fin 8) (d : Delivery) : (s.deliver l d).banks = s.banks := by
  unfold State.deliver; repeat' split
  all_goals simp
@[simp] theorem State.deliver_store (l : Fin 8) (d : Delivery) : (s.deliver l d).store = s.store := by
  unfold State.deliver; repeat' split
  all_goals simp
@[simp] theorem State.deliver_freeIdx (l : Fin 8) (d : Delivery) : (s.deliver l d).freeIdx = s.freeIdx := by
  unfold State.deliver; repeat' split
  all_goals simp
@[simp] theorem State.deliver_pending (l : Fin 8) (d : Delivery) : (s.deliver l d).pending = s.pending := by
  unfold State.deliver; repeat' split
  all_goals simp

/-! ## `State.wordArrives` -/

@[simp] theorem State.wordArrives_plant (l : Fin 8) (w : LinkWord) : (s.wordArrives l w).plant = s.plant := by
  unfold State.wordArrives; dsimp only; repeat' split
  all_goals try rw [State.deliver_plant]
  all_goals exact (foldl_keeps (fun s : State => s.plant) (fun s e => by simp) _ _).trans rfl
@[simp] theorem State.wordArrives_sources (l : Fin 8) (w : LinkWord) : (s.wordArrives l w).sources = s.sources := by
  unfold State.wordArrives; dsimp only; repeat' split
  all_goals try rw [State.deliver_sources]
  all_goals exact (foldl_keeps (fun s : State => s.sources) (fun s e => by simp) _ _).trans rfl
@[simp] theorem State.wordArrives_residues (l : Fin 8) (w : LinkWord) : (s.wordArrives l w).residues = s.residues := by
  unfold State.wordArrives; dsimp only; repeat' split
  all_goals try rw [State.deliver_residues]
  all_goals exact (foldl_keeps (fun s : State => s.residues) (fun s e => by simp) _ _).trans rfl
@[simp] theorem State.wordArrives_furnaces (l : Fin 8) (w : LinkWord) : (s.wordArrives l w).furnaces = s.furnaces := by
  unfold State.wordArrives; dsimp only; repeat' split
  all_goals try rw [State.deliver_furnaces]
  all_goals exact (foldl_keeps (fun s : State => s.furnaces) (fun s e => by simp) _ _).trans rfl
@[simp] theorem State.wordArrives_engine (l : Fin 8) (w : LinkWord) : (s.wordArrives l w).engine = s.engine := by
  unfold State.wordArrives; dsimp only; repeat' split
  all_goals try rw [State.deliver_engine]
  all_goals exact (foldl_keeps (fun s : State => s.engine) (fun s e => by simp) _ _).trans rfl
@[simp] theorem State.wordArrives_working (l : Fin 8) (w : LinkWord) : (s.wordArrives l w).working = s.working := by
  unfold State.wordArrives; dsimp only; repeat' split
  all_goals try rw [State.deliver_working]
  all_goals exact (foldl_keeps (fun s : State => s.working) (fun s e => by simp) _ _).trans rfl
@[simp] theorem State.wordArrives_published (l : Fin 8) (w : LinkWord) : (s.wordArrives l w).published = s.published := by
  unfold State.wordArrives; dsimp only; repeat' split
  all_goals try rw [State.deliver_published]
  all_goals exact (foldl_keeps (fun s : State => s.published) (fun s e => by simp) _ _).trans rfl
@[simp] theorem State.wordArrives_banks (l : Fin 8) (w : LinkWord) : (s.wordArrives l w).banks = s.banks := by
  unfold State.wordArrives; dsimp only; repeat' split
  all_goals try rw [State.deliver_banks]
  all_goals exact (foldl_keeps (fun s : State => s.banks) (fun s e => by simp) _ _).trans rfl
@[simp] theorem State.wordArrives_store (l : Fin 8) (w : LinkWord) : (s.wordArrives l w).store = s.store := by
  unfold State.wordArrives; dsimp only; repeat' split
  all_goals try rw [State.deliver_store]
  all_goals exact (foldl_keeps (fun s : State => s.store) (fun s e => by simp) _ _).trans rfl
@[simp] theorem State.wordArrives_freeIdx (l : Fin 8) (w : LinkWord) : (s.wordArrives l w).freeIdx = s.freeIdx := by
  unfold State.wordArrives; dsimp only; repeat' split
  all_goals try rw [State.deliver_freeIdx]
  all_goals exact (foldl_keeps (fun s : State => s.freeIdx) (fun s e => by simp) _ _).trans rfl
@[simp] theorem State.wordArrives_pending (l : Fin 8) (w : LinkWord) : (s.wordArrives l w).pending = s.pending := by
  unfold State.wordArrives; dsimp only; repeat' split
  all_goals try rw [State.deliver_pending]
  all_goals exact (foldl_keeps (fun s : State => s.pending) (fun s e => by simp) _ _).trans rfl

/-! ## `State.clearChangedSources` -/

@[simp] theorem State.clearChangedSources_plant (old new : PlantMap) : (s.clearChangedSources old new).plant = s.plant := rfl
@[simp] theorem State.clearChangedSources_links (old new : PlantMap) : (s.clearChangedSources old new).links = s.links := rfl
@[simp] theorem State.clearChangedSources_ctrl (old new : PlantMap) : (s.clearChangedSources old new).ctrl = s.ctrl := rfl
@[simp] theorem State.clearChangedSources_furnaces (old new : PlantMap) : (s.clearChangedSources old new).furnaces = s.furnaces := rfl
@[simp] theorem State.clearChangedSources_engine (old new : PlantMap) : (s.clearChangedSources old new).engine = s.engine := rfl
@[simp] theorem State.clearChangedSources_working (old new : PlantMap) : (s.clearChangedSources old new).working = s.working := rfl
@[simp] theorem State.clearChangedSources_published (old new : PlantMap) : (s.clearChangedSources old new).published = s.published := rfl
@[simp] theorem State.clearChangedSources_banks (old new : PlantMap) : (s.clearChangedSources old new).banks = s.banks := rfl
@[simp] theorem State.clearChangedSources_ports (old new : PlantMap) : (s.clearChangedSources old new).ports = s.ports := rfl
@[simp] theorem State.clearChangedSources_store (old new : PlantMap) : (s.clearChangedSources old new).store = s.store := rfl
@[simp] theorem State.clearChangedSources_freeIdx (old new : PlantMap) : (s.clearChangedSources old new).freeIdx = s.freeIdx := rfl
@[simp] theorem State.clearChangedSources_pending (old new : PlantMap) : (s.clearChangedSources old new).pending = s.pending := rfl

/-! ## `State.retireFurnace` -/

@[simp] theorem State.retireFurnace_plant (f : Fin 4) : (s.retireFurnace f).plant = s.plant := by simp [State.retireFurnace]
@[simp] theorem State.retireFurnace_links (f : Fin 4) : (s.retireFurnace f).links = s.links := by simp [State.retireFurnace]
@[simp] theorem State.retireFurnace_ctrl (f : Fin 4) : (s.retireFurnace f).ctrl = s.ctrl := by simp [State.retireFurnace]
@[simp] theorem State.retireFurnace_sources (f : Fin 4) : (s.retireFurnace f).sources = s.sources := by simp [State.retireFurnace]
@[simp] theorem State.retireFurnace_residues (f : Fin 4) : (s.retireFurnace f).residues = s.residues := by simp [State.retireFurnace]
@[simp] theorem State.retireFurnace_engine (f : Fin 4) : (s.retireFurnace f).engine = s.engine := by simp [State.retireFurnace]
@[simp] theorem State.retireFurnace_working (f : Fin 4) : (s.retireFurnace f).working = s.working := by simp [State.retireFurnace]
@[simp] theorem State.retireFurnace_published (f : Fin 4) : (s.retireFurnace f).published = s.published := by simp [State.retireFurnace]
@[simp] theorem State.retireFurnace_store (f : Fin 4) : (s.retireFurnace f).store = s.store := by simp [State.retireFurnace]
@[simp] theorem State.retireFurnace_freeIdx (f : Fin 4) : (s.retireFurnace f).freeIdx = s.freeIdx := by simp [State.retireFurnace]
@[simp] theorem State.retireFurnace_pending (f : Fin 4) : (s.retireFurnace f).pending = s.pending := by simp [State.retireFurnace]

/-! ## `State.retireFurnaces` -/

@[simp] theorem State.retireFurnaces_plant (old new : PlantMap) : (s.retireFurnaces old new).plant = s.plant := foldl_keeps (fun s : State => s.plant) (fun s f => by split <;> simp) _ _
@[simp] theorem State.retireFurnaces_links (old new : PlantMap) : (s.retireFurnaces old new).links = s.links := foldl_keeps (fun s : State => s.links) (fun s f => by split <;> simp) _ _
@[simp] theorem State.retireFurnaces_ctrl (old new : PlantMap) : (s.retireFurnaces old new).ctrl = s.ctrl := foldl_keeps (fun s : State => s.ctrl) (fun s f => by split <;> simp) _ _
@[simp] theorem State.retireFurnaces_sources (old new : PlantMap) : (s.retireFurnaces old new).sources = s.sources := foldl_keeps (fun s : State => s.sources) (fun s f => by split <;> simp) _ _
@[simp] theorem State.retireFurnaces_residues (old new : PlantMap) : (s.retireFurnaces old new).residues = s.residues := foldl_keeps (fun s : State => s.residues) (fun s f => by split <;> simp) _ _
@[simp] theorem State.retireFurnaces_engine (old new : PlantMap) : (s.retireFurnaces old new).engine = s.engine := foldl_keeps (fun s : State => s.engine) (fun s f => by split <;> simp) _ _
@[simp] theorem State.retireFurnaces_working (old new : PlantMap) : (s.retireFurnaces old new).working = s.working := foldl_keeps (fun s : State => s.working) (fun s f => by split <;> simp) _ _
@[simp] theorem State.retireFurnaces_published (old new : PlantMap) : (s.retireFurnaces old new).published = s.published := foldl_keeps (fun s : State => s.published) (fun s f => by split <;> simp) _ _
@[simp] theorem State.retireFurnaces_store (old new : PlantMap) : (s.retireFurnaces old new).store = s.store := foldl_keeps (fun s : State => s.store) (fun s f => by split <;> simp) _ _
@[simp] theorem State.retireFurnaces_freeIdx (old new : PlantMap) : (s.retireFurnaces old new).freeIdx = s.freeIdx := foldl_keeps (fun s : State => s.freeIdx) (fun s f => by split <;> simp) _ _
@[simp] theorem State.retireFurnaces_pending (old new : PlantMap) : (s.retireFurnaces old new).pending = s.pending := foldl_keeps (fun s : State => s.pending) (fun s f => by split <;> simp) _ _

/-! ## `State.resetChangedLinks` -/

@[simp] theorem State.resetChangedLinks_plant (old new : PlantMap) : (s.resetChangedLinks old new).plant = s.plant := rfl
@[simp] theorem State.resetChangedLinks_ctrl (old new : PlantMap) : (s.resetChangedLinks old new).ctrl = s.ctrl := rfl
@[simp] theorem State.resetChangedLinks_sources (old new : PlantMap) : (s.resetChangedLinks old new).sources = s.sources := rfl
@[simp] theorem State.resetChangedLinks_residues (old new : PlantMap) : (s.resetChangedLinks old new).residues = s.residues := rfl
@[simp] theorem State.resetChangedLinks_furnaces (old new : PlantMap) : (s.resetChangedLinks old new).furnaces = s.furnaces := rfl
@[simp] theorem State.resetChangedLinks_engine (old new : PlantMap) : (s.resetChangedLinks old new).engine = s.engine := rfl
@[simp] theorem State.resetChangedLinks_working (old new : PlantMap) : (s.resetChangedLinks old new).working = s.working := rfl
@[simp] theorem State.resetChangedLinks_published (old new : PlantMap) : (s.resetChangedLinks old new).published = s.published := rfl
@[simp] theorem State.resetChangedLinks_banks (old new : PlantMap) : (s.resetChangedLinks old new).banks = s.banks := rfl
@[simp] theorem State.resetChangedLinks_ports (old new : PlantMap) : (s.resetChangedLinks old new).ports = s.ports := rfl
@[simp] theorem State.resetChangedLinks_store (old new : PlantMap) : (s.resetChangedLinks old new).store = s.store := rfl
@[simp] theorem State.resetChangedLinks_freeIdx (old new : PlantMap) : (s.resetChangedLinks old new).freeIdx = s.freeIdx := rfl
@[simp] theorem State.resetChangedLinks_pending (old new : PlantMap) : (s.resetChangedLinks old new).pending = s.pending := rfl

/-! ## `State.applyMap` -/

@[simp] theorem State.applyMap_engine : (s.applyMap).engine = s.engine := by simp [State.applyMap]
@[simp] theorem State.applyMap_working : (s.applyMap).working = s.working := by simp [State.applyMap]
@[simp] theorem State.applyMap_published : (s.applyMap).published = s.published := by simp [State.applyMap]
@[simp] theorem State.applyMap_store : (s.applyMap).store = s.store := by simp [State.applyMap]
@[simp] theorem State.applyMap_freeIdx : (s.applyMap).freeIdx = s.freeIdx := by simp [State.applyMap]
@[simp] theorem State.applyMap_pending : (s.applyMap).pending = s.pending := by simp [State.applyMap]

/-! ## `State.applyPendingLags` -/

@[simp] theorem State.applyPendingLags_plant : (s.applyPendingLags).plant = s.plant := rfl
@[simp] theorem State.applyPendingLags_links : (s.applyPendingLags).links = s.links := rfl
@[simp] theorem State.applyPendingLags_ctrl : (s.applyPendingLags).ctrl = s.ctrl := rfl
@[simp] theorem State.applyPendingLags_sources : (s.applyPendingLags).sources = s.sources := rfl
@[simp] theorem State.applyPendingLags_residues : (s.applyPendingLags).residues = s.residues := rfl
@[simp] theorem State.applyPendingLags_engine : (s.applyPendingLags).engine = s.engine := rfl
@[simp] theorem State.applyPendingLags_working : (s.applyPendingLags).working = s.working := rfl
@[simp] theorem State.applyPendingLags_published : (s.applyPendingLags).published = s.published := rfl
@[simp] theorem State.applyPendingLags_banks : (s.applyPendingLags).banks = s.banks := rfl
@[simp] theorem State.applyPendingLags_ports : (s.applyPendingLags).ports = s.ports := rfl
@[simp] theorem State.applyPendingLags_store : (s.applyPendingLags).store = s.store := rfl
@[simp] theorem State.applyPendingLags_freeIdx : (s.applyPendingLags).freeIdx = s.freeIdx := rfl
@[simp] theorem State.applyPendingLags_pending : (s.applyPendingLags).pending = s.pending := rfl

/-! ## `State.startComputation` -/

@[simp] theorem State.startComputation_published (i : Fin 2) : (s.startComputation i).published = s.published := by
  unfold State.startComputation; dsimp only; repeat' split
  all_goals simp
@[simp] theorem State.startComputation_store (i : Fin 2) : (s.startComputation i).store = s.store := by
  unfold State.startComputation; dsimp only; repeat' split
  all_goals simp
@[simp] theorem State.startComputation_freeIdx (i : Fin 2) : (s.startComputation i).freeIdx = s.freeIdx := by
  unfold State.startComputation; dsimp only; repeat' split
  all_goals simp
@[simp] theorem State.startComputation_pending (i : Fin 2) : (s.startComputation i).pending = s.pending := by
  unfold State.startComputation; dsimp only; repeat' split
  all_goals simp

/-! ## `State.closeWindow` -/

@[simp] theorem State.closeWindow_published (hold : Bool) (i : Fin 2) : (s.closeWindow hold i).published = s.published := by unfold State.closeWindow; dsimp only; split <;> simp
@[simp] theorem State.closeWindow_store (hold : Bool) (i : Fin 2) : (s.closeWindow hold i).store = s.store := by unfold State.closeWindow; dsimp only; split <;> simp
@[simp] theorem State.closeWindow_freeIdx (hold : Bool) (i : Fin 2) : (s.closeWindow hold i).freeIdx = s.freeIdx := by unfold State.closeWindow; dsimp only; split <;> simp
@[simp] theorem State.closeWindow_pending (hold : Bool) (i : Fin 2) : (s.closeWindow hold i).pending = s.pending := by unfold State.closeWindow; dsimp only; split <;> simp

/-! ## `State.judgeClosure` -/

@[simp] theorem State.judgeClosure_published (hold : Bool) : (s.judgeClosure hold).published = s.published := by
  unfold State.judgeClosure; repeat' split
  all_goals simp
@[simp] theorem State.judgeClosure_store (hold : Bool) : (s.judgeClosure hold).store = s.store := by
  unfold State.judgeClosure; repeat' split
  all_goals simp
@[simp] theorem State.judgeClosure_freeIdx (hold : Bool) : (s.judgeClosure hold).freeIdx = s.freeIdx := by
  unfold State.judgeClosure; repeat' split
  all_goals simp
@[simp] theorem State.judgeClosure_pending (hold : Bool) : (s.judgeClosure hold).pending = s.pending := by
  unfold State.judgeClosure; repeat' split
  all_goals simp

/-! ## `State.startWaiting` -/

@[simp] theorem State.startWaiting_published : (s.startWaiting).published = s.published := by
  unfold State.startWaiting; repeat' split
  all_goals simp
@[simp] theorem State.startWaiting_store : (s.startWaiting).store = s.store := by
  unfold State.startWaiting; repeat' split
  all_goals simp
@[simp] theorem State.startWaiting_freeIdx : (s.startWaiting).freeIdx = s.freeIdx := by
  unfold State.startWaiting; repeat' split
  all_goals simp
@[simp] theorem State.startWaiting_pending : (s.startWaiting).pending = s.pending := by
  unfold State.startWaiting; repeat' split
  all_goals simp

/-! ## `State.swap` -/

@[simp] theorem State.swap_plant (c : CloseCause) : (s.swap c).plant = s.plant := by simp [State.swap]
@[simp] theorem State.swap_links (c : CloseCause) : (s.swap c).links = s.links := by simp [State.swap]
@[simp] theorem State.swap_ctrl (c : CloseCause) : (s.swap c).ctrl = s.ctrl := by simp [State.swap]
@[simp] theorem State.swap_sources (c : CloseCause) : (s.swap c).sources = s.sources := by simp [State.swap]
@[simp] theorem State.swap_residues (c : CloseCause) : (s.swap c).residues = s.residues := by simp [State.swap]
@[simp] theorem State.swap_furnaces (c : CloseCause) : (s.swap c).furnaces = s.furnaces := by simp [State.swap]
@[simp] theorem State.swap_engine (c : CloseCause) : (s.swap c).engine = s.engine := by simp [State.swap]
@[simp] theorem State.swap_working (c : CloseCause) : (s.swap c).working = s.working := by simp [State.swap]
@[simp] theorem State.swap_published (c : CloseCause) : (s.swap c).published = s.published := by simp [State.swap]
@[simp] theorem State.swap_store (c : CloseCause) : (s.swap c).store = s.store := by simp [State.swap]
@[simp] theorem State.swap_freeIdx (c : CloseCause) : (s.swap c).freeIdx = s.freeIdx := by simp [State.swap]
@[simp] theorem State.swap_pending (c : CloseCause) : (s.swap c).pending = s.pending := by simp [State.swap]

/-! ## `State.returnToReady` -/

@[simp] theorem State.returnToReady_engine : (s.returnToReady).engine = s.engine := by unfold State.returnToReady; dsimp only; split <;> simp
@[simp] theorem State.returnToReady_working : (s.returnToReady).working = s.working := by unfold State.returnToReady; dsimp only; split <;> simp
@[simp] theorem State.returnToReady_published : (s.returnToReady).published = s.published := by unfold State.returnToReady; dsimp only; split <;> simp
@[simp] theorem State.returnToReady_store : (s.returnToReady).store = s.store := by unfold State.returnToReady; dsimp only; split <;> simp
@[simp] theorem State.returnToReady_freeIdx : (s.returnToReady).freeIdx = s.freeIdx := by unfold State.returnToReady; dsimp only; split <;> simp
@[simp] theorem State.returnToReady_pending : (s.returnToReady).pending = s.pending := by unfold State.returnToReady; dsimp only; split <;> simp

/-! ## `State.completionNotices` -/

@[simp] theorem State.completionNotices_plant (f : Findings) : (s.completionNotices f).plant = s.plant := by simp [State.completionNotices]
@[simp] theorem State.completionNotices_links (f : Findings) : (s.completionNotices f).links = s.links := by simp [State.completionNotices]
@[simp] theorem State.completionNotices_ctrl (f : Findings) : (s.completionNotices f).ctrl = s.ctrl := by simp [State.completionNotices]
@[simp] theorem State.completionNotices_sources (f : Findings) : (s.completionNotices f).sources = s.sources := by simp [State.completionNotices]
@[simp] theorem State.completionNotices_residues (f : Findings) : (s.completionNotices f).residues = s.residues := by simp [State.completionNotices]
@[simp] theorem State.completionNotices_furnaces (f : Findings) : (s.completionNotices f).furnaces = s.furnaces := by simp [State.completionNotices]
@[simp] theorem State.completionNotices_engine (f : Findings) : (s.completionNotices f).engine = s.engine := by simp [State.completionNotices]
@[simp] theorem State.completionNotices_working (f : Findings) : (s.completionNotices f).working = s.working := by simp [State.completionNotices]
@[simp] theorem State.completionNotices_published (f : Findings) : (s.completionNotices f).published = s.published := by simp [State.completionNotices]
@[simp] theorem State.completionNotices_banks (f : Findings) : (s.completionNotices f).banks = s.banks := by simp [State.completionNotices]
@[simp] theorem State.completionNotices_store (f : Findings) : (s.completionNotices f).store = s.store := by simp [State.completionNotices]
@[simp] theorem State.completionNotices_freeIdx (f : Findings) : (s.completionNotices f).freeIdx = s.freeIdx := by simp [State.completionNotices]
@[simp] theorem State.completionNotices_pending (f : Findings) : (s.completionNotices f).pending = s.pending := by simp [State.completionNotices]

/-! ## `State.publish` -/

@[simp] theorem State.publish_plant (mark : Option CloseCause) (t : ResultTable) : (s.publish mark t).plant = s.plant := by simp [State.publish]
@[simp] theorem State.publish_links (mark : Option CloseCause) (t : ResultTable) : (s.publish mark t).links = s.links := by simp [State.publish]
@[simp] theorem State.publish_ctrl (mark : Option CloseCause) (t : ResultTable) : (s.publish mark t).ctrl = s.ctrl := by simp [State.publish]
@[simp] theorem State.publish_sources (mark : Option CloseCause) (t : ResultTable) : (s.publish mark t).sources = s.sources := by simp [State.publish]
@[simp] theorem State.publish_residues (mark : Option CloseCause) (t : ResultTable) : (s.publish mark t).residues = s.residues := by simp [State.publish]
@[simp] theorem State.publish_furnaces (mark : Option CloseCause) (t : ResultTable) : (s.publish mark t).furnaces = s.furnaces := by simp [State.publish]
@[simp] theorem State.publish_engine (mark : Option CloseCause) (t : ResultTable) : (s.publish mark t).engine = s.engine := by simp [State.publish]
@[simp] theorem State.publish_store (mark : Option CloseCause) (t : ResultTable) : (s.publish mark t).store = s.store := by simp [State.publish]
@[simp] theorem State.publish_freeIdx (mark : Option CloseCause) (t : ResultTable) : (s.publish mark t).freeIdx = s.freeIdx := by simp [State.publish]
@[simp] theorem State.publish_pending (mark : Option CloseCause) (t : ResultTable) : (s.publish mark t).pending = s.pending := by simp [State.publish]

/-! ## `State.swapIfMarked` -/

@[simp] theorem State.swapIfMarked_plant (mark : Option CloseCause) : (s.swapIfMarked mark).plant = s.plant := by unfold State.swapIfMarked; split <;> simp
@[simp] theorem State.swapIfMarked_links (mark : Option CloseCause) : (s.swapIfMarked mark).links = s.links := by unfold State.swapIfMarked; split <;> simp
@[simp] theorem State.swapIfMarked_ctrl (mark : Option CloseCause) : (s.swapIfMarked mark).ctrl = s.ctrl := by unfold State.swapIfMarked; split <;> simp
@[simp] theorem State.swapIfMarked_sources (mark : Option CloseCause) : (s.swapIfMarked mark).sources = s.sources := by unfold State.swapIfMarked; split <;> simp
@[simp] theorem State.swapIfMarked_residues (mark : Option CloseCause) : (s.swapIfMarked mark).residues = s.residues := by unfold State.swapIfMarked; split <;> simp
@[simp] theorem State.swapIfMarked_furnaces (mark : Option CloseCause) : (s.swapIfMarked mark).furnaces = s.furnaces := by unfold State.swapIfMarked; split <;> simp
@[simp] theorem State.swapIfMarked_engine (mark : Option CloseCause) : (s.swapIfMarked mark).engine = s.engine := by unfold State.swapIfMarked; split <;> simp
@[simp] theorem State.swapIfMarked_working (mark : Option CloseCause) : (s.swapIfMarked mark).working = s.working := by unfold State.swapIfMarked; split <;> simp
@[simp] theorem State.swapIfMarked_published (mark : Option CloseCause) : (s.swapIfMarked mark).published = s.published := by unfold State.swapIfMarked; split <;> simp
@[simp] theorem State.swapIfMarked_store (mark : Option CloseCause) : (s.swapIfMarked mark).store = s.store := by unfold State.swapIfMarked; split <;> simp
@[simp] theorem State.swapIfMarked_freeIdx (mark : Option CloseCause) : (s.swapIfMarked mark).freeIdx = s.freeIdx := by unfold State.swapIfMarked; split <;> simp
@[simp] theorem State.swapIfMarked_pending (mark : Option CloseCause) : (s.swapIfMarked mark).pending = s.pending := by unfold State.swapIfMarked; split <;> simp

/-! ## `State.afterCompletion` -/

@[simp] theorem State.afterCompletion_published (i : Fin 2) : (s.afterCompletion i).published = s.published := by
  unfold State.afterCompletion; dsimp only; repeat' split
  all_goals simp
@[simp] theorem State.afterCompletion_store (i : Fin 2) : (s.afterCompletion i).store = s.store := by
  unfold State.afterCompletion; dsimp only; repeat' split
  all_goals simp
@[simp] theorem State.afterCompletion_freeIdx (i : Fin 2) : (s.afterCompletion i).freeIdx = s.freeIdx := by
  unfold State.afterCompletion; dsimp only; repeat' split
  all_goals simp
@[simp] theorem State.afterCompletion_pending (i : Fin 2) : (s.afterCompletion i).pending = s.pending := by
  unfold State.afterCompletion; dsimp only; repeat' split
  all_goals simp

/-! ## `State.finishCompletion`, `State.bankInterval`, `State.atMoment` -/

@[simp] theorem State.finishCompletion_published (i : Fin 2) : (s.finishCompletion i).published = s.published := by simp [State.finishCompletion]
@[simp] theorem State.finishCompletion_store (i : Fin 2) : (s.finishCompletion i).store = s.store := by simp [State.finishCompletion]
@[simp] theorem State.finishCompletion_freeIdx (i : Fin 2) : (s.finishCompletion i).freeIdx = s.freeIdx := by simp [State.finishCompletion]
@[simp] theorem State.finishCompletion_pending (i : Fin 2) : (s.finishCompletion i).pending = s.pending := by simp [State.finishCompletion]

@[simp] theorem State.bankInterval_plant (i : Fin 2) : (s.bankInterval i).plant = s.plant := by unfold State.bankInterval; split <;> simp
@[simp] theorem State.bankInterval_links (i : Fin 2) : (s.bankInterval i).links = s.links := by unfold State.bankInterval; split <;> simp
@[simp] theorem State.bankInterval_ctrl (i : Fin 2) : (s.bankInterval i).ctrl = s.ctrl := by unfold State.bankInterval; split <;> simp
@[simp] theorem State.bankInterval_sources (i : Fin 2) : (s.bankInterval i).sources = s.sources := by unfold State.bankInterval; split <;> simp
@[simp] theorem State.bankInterval_residues (i : Fin 2) : (s.bankInterval i).residues = s.residues := by unfold State.bankInterval; split <;> simp
@[simp] theorem State.bankInterval_furnaces (i : Fin 2) : (s.bankInterval i).furnaces = s.furnaces := by unfold State.bankInterval; split <;> simp
@[simp] theorem State.bankInterval_store (i : Fin 2) : (s.bankInterval i).store = s.store := by unfold State.bankInterval; split <;> simp
@[simp] theorem State.bankInterval_freeIdx (i : Fin 2) : (s.bankInterval i).freeIdx = s.freeIdx := by unfold State.bankInterval; split <;> simp
@[simp] theorem State.bankInterval_pending (i : Fin 2) : (s.bankInterval i).pending = s.pending := by unfold State.bankInterval; split <;> simp

/-- A completion made in its two parts, with a read between them, is the whole completion (R128, R155). -/
theorem State.finishCompletion_bankInterval (i : Fin 2) (t : ResultTable) (c : CloseCause) (hw : s.working = some t)
    (hm : (s.ctrl.sets.get i).mark = some c) : (s.bankInterval i).finishCompletion i = s.complete i := by
  have hm' : ((s.publish (some c) t).ctrl.sets.get i).mark = some c := by simpa using hm
  simp only [State.bankInterval, State.complete, State.finishCompletion, hw, hm, hm']
  rfl

/-- What the moment of a READ_BANK_RECORD can find: the state itself, or, before the swap of a marked completion that is due, the
interval published and added. -/
theorem State.atMoment_cases (m : ReadMoment) :
    s.atMoment m = s ∨ ∃ i t c, m = .beforeSwap ∧ s.ctrl.setWith .computing = some i ∧ s.engine.phase = .totalled ∧
      s.working = some t ∧ (s.ctrl.sets.get i).mark = some c ∧
      s.atMoment m = { s.publish (some c) t with engine := { s.engine with phase := .banked } } := by
  cases m with
  | inTurn => exact .inl rfl
  | beforeSwap =>
    cases hi : s.ctrl.setWith .computing with
    | none => left; simp [State.atMoment, State.atStage, hi]
    | some i =>
      by_cases hp : s.engine.phase = .totalled
      · cases hw : s.working with
        | none => left; simp [State.atMoment, State.atStage, hi, hp, State.bankInterval, hw]
        | some t =>
          cases hm : (s.ctrl.sets.get i).mark with
          | none => left; simp [State.atMoment, State.atStage, hi, hp, State.bankInterval, hw, hm]
          | some c =>
            exact .inr ⟨i, t, c, rfl, rfl, hp, rfl, hm, by
              simp [State.atMoment, State.atStage, hi, hp, State.bankInterval, hw, hm]⟩
      · left; simp [State.atMoment, State.atStage, hi, hp]

/-! ## `State.openWindow` -/

@[simp] theorem State.openWindow_plant (n : BitVec 32) (mark : Option CloseCause) : (s.openWindow n mark).plant = s.plant := by unfold State.openWindow; split <;> rfl
@[simp] theorem State.openWindow_links (n : BitVec 32) (mark : Option CloseCause) : (s.openWindow n mark).links = s.links := by unfold State.openWindow; split <;> rfl
@[simp] theorem State.openWindow_sources (n : BitVec 32) (mark : Option CloseCause) : (s.openWindow n mark).sources = s.sources := by unfold State.openWindow; split <;> rfl
@[simp] theorem State.openWindow_residues (n : BitVec 32) (mark : Option CloseCause) : (s.openWindow n mark).residues = s.residues := by unfold State.openWindow; split <;> rfl
@[simp] theorem State.openWindow_furnaces (n : BitVec 32) (mark : Option CloseCause) : (s.openWindow n mark).furnaces = s.furnaces := by unfold State.openWindow; split <;> rfl
@[simp] theorem State.openWindow_engine (n : BitVec 32) (mark : Option CloseCause) : (s.openWindow n mark).engine = s.engine := by unfold State.openWindow; split <;> rfl
@[simp] theorem State.openWindow_working (n : BitVec 32) (mark : Option CloseCause) : (s.openWindow n mark).working = s.working := by unfold State.openWindow; split <;> rfl
@[simp] theorem State.openWindow_published (n : BitVec 32) (mark : Option CloseCause) : (s.openWindow n mark).published = s.published := by unfold State.openWindow; split <;> rfl
@[simp] theorem State.openWindow_banks (n : BitVec 32) (mark : Option CloseCause) : (s.openWindow n mark).banks = s.banks := by unfold State.openWindow; split <;> rfl
@[simp] theorem State.openWindow_ports (n : BitVec 32) (mark : Option CloseCause) : (s.openWindow n mark).ports = s.ports := by unfold State.openWindow; split <;> rfl
@[simp] theorem State.openWindow_store (n : BitVec 32) (mark : Option CloseCause) : (s.openWindow n mark).store = s.store := by unfold State.openWindow; split <;> rfl
@[simp] theorem State.openWindow_freeIdx (n : BitVec 32) (mark : Option CloseCause) : (s.openWindow n mark).freeIdx = s.freeIdx := by unfold State.openWindow; split <;> rfl
@[simp] theorem State.openWindow_pending (n : BitVec 32) (mark : Option CloseCause) : (s.openWindow n mark).pending = s.pending := by unfold State.openWindow; split <;> rfl

/-! ## `State.acceptMark` -/

@[simp] theorem State.acceptMark_published (pmark : Bool) : (s.acceptMark pmark).published = s.published := by
  unfold State.acceptMark; dsimp only; split <;> simp
@[simp] theorem State.acceptMark_store (pmark : Bool) : (s.acceptMark pmark).store = s.store := by
  unfold State.acceptMark; dsimp only; split <;> simp
@[simp] theorem State.acceptMark_freeIdx (pmark : Bool) : (s.acceptMark pmark).freeIdx = s.freeIdx := by
  unfold State.acceptMark; dsimp only; split <;> simp
@[simp] theorem State.acceptMark_pending (pmark : Bool) : (s.acceptMark pmark).pending = s.pending := by
  unfold State.acceptMark; dsimp only; split <;> simp

/-! ## `State.refuseMark` -/

@[simp] theorem State.refuseMark_plant (pmark : Bool) : (s.refuseMark pmark).plant = s.plant := by simp [State.refuseMark]
@[simp] theorem State.refuseMark_links (pmark : Bool) : (s.refuseMark pmark).links = s.links := by simp [State.refuseMark]
@[simp] theorem State.refuseMark_ctrl (pmark : Bool) : (s.refuseMark pmark).ctrl = s.ctrl := by simp [State.refuseMark]
@[simp] theorem State.refuseMark_sources (pmark : Bool) : (s.refuseMark pmark).sources = s.sources := by simp [State.refuseMark]
@[simp] theorem State.refuseMark_residues (pmark : Bool) : (s.refuseMark pmark).residues = s.residues := by simp [State.refuseMark]
@[simp] theorem State.refuseMark_furnaces (pmark : Bool) : (s.refuseMark pmark).furnaces = s.furnaces := by simp [State.refuseMark]
@[simp] theorem State.refuseMark_engine (pmark : Bool) : (s.refuseMark pmark).engine = s.engine := by simp [State.refuseMark]
@[simp] theorem State.refuseMark_working (pmark : Bool) : (s.refuseMark pmark).working = s.working := by simp [State.refuseMark]
@[simp] theorem State.refuseMark_published (pmark : Bool) : (s.refuseMark pmark).published = s.published := by simp [State.refuseMark]
@[simp] theorem State.refuseMark_banks (pmark : Bool) : (s.refuseMark pmark).banks = s.banks := by simp [State.refuseMark]
@[simp] theorem State.refuseMark_store (pmark : Bool) : (s.refuseMark pmark).store = s.store := by simp [State.refuseMark]
@[simp] theorem State.refuseMark_freeIdx (pmark : Bool) : (s.refuseMark pmark).freeIdx = s.freeIdx := by simp [State.refuseMark]
@[simp] theorem State.refuseMark_pending (pmark : Bool) : (s.refuseMark pmark).pending = s.pending := by simp [State.refuseMark]

/-! ## `State.markStop` -/

@[simp] theorem State.markStop_plant (i : Fin 2) : (s.markStop i).plant = s.plant := rfl
@[simp] theorem State.markStop_links (i : Fin 2) : (s.markStop i).links = s.links := rfl
@[simp] theorem State.markStop_sources (i : Fin 2) : (s.markStop i).sources = s.sources := rfl
@[simp] theorem State.markStop_residues (i : Fin 2) : (s.markStop i).residues = s.residues := rfl
@[simp] theorem State.markStop_furnaces (i : Fin 2) : (s.markStop i).furnaces = s.furnaces := rfl
@[simp] theorem State.markStop_engine (i : Fin 2) : (s.markStop i).engine = s.engine := rfl
@[simp] theorem State.markStop_working (i : Fin 2) : (s.markStop i).working = s.working := rfl
@[simp] theorem State.markStop_published (i : Fin 2) : (s.markStop i).published = s.published := rfl
@[simp] theorem State.markStop_banks (i : Fin 2) : (s.markStop i).banks = s.banks := rfl
@[simp] theorem State.markStop_ports (i : Fin 2) : (s.markStop i).ports = s.ports := rfl
@[simp] theorem State.markStop_store (i : Fin 2) : (s.markStop i).store = s.store := rfl
@[simp] theorem State.markStop_freeIdx (i : Fin 2) : (s.markStop i).freeIdx = s.freeIdx := rfl
@[simp] theorem State.markStop_pending (i : Fin 2) : (s.markStop i).pending = s.pending := rfl

/-! ## `State.stopAtOnce` -/

@[simp] theorem State.stopAtOnce_engine : (s.stopAtOnce).engine = s.engine := by unfold State.stopAtOnce; split <;> simp
@[simp] theorem State.stopAtOnce_working : (s.stopAtOnce).working = s.working := by unfold State.stopAtOnce; split <;> simp
@[simp] theorem State.stopAtOnce_published : (s.stopAtOnce).published = s.published := by unfold State.stopAtOnce; split <;> simp
@[simp] theorem State.stopAtOnce_store : (s.stopAtOnce).store = s.store := by unfold State.stopAtOnce; split <;> simp
@[simp] theorem State.stopAtOnce_freeIdx : (s.stopAtOnce).freeIdx = s.freeIdx := by unfold State.stopAtOnce; split <;> simp
@[simp] theorem State.stopAtOnce_pending : (s.stopAtOnce).pending = s.pending := by unfold State.stopAtOnce; split <;> simp

/-! ## `State.stopRun` -/

@[simp] theorem State.stopRun_published : (s.stopRun).published = s.published := by
  unfold State.stopRun; dsimp only; repeat' split
  all_goals simp
@[simp] theorem State.stopRun_store : (s.stopRun).store = s.store := by
  unfold State.stopRun; dsimp only; repeat' split
  all_goals simp
@[simp] theorem State.stopRun_freeIdx : (s.stopRun).freeIdx = s.freeIdx := by
  unfold State.stopRun; dsimp only; repeat' split
  all_goals simp
@[simp] theorem State.stopRun_pending : (s.stopRun).pending = s.pending := by
  unfold State.stopRun; dsimp only; repeat' split
  all_goals simp

/-! ## `State.wireWord` -/

@[simp] theorem State.wireWord_published (l : Fin 8) (w : LinkWord) : (s.wireWord l w).published = s.published := by unfold State.wireWord; split <;> simp
@[simp] theorem State.wireWord_store (l : Fin 8) (w : LinkWord) : (s.wireWord l w).store = s.store := by unfold State.wireWord; split <;> simp
@[simp] theorem State.wireWord_freeIdx (l : Fin 8) (w : LinkWord) : (s.wireWord l w).freeIdx = s.freeIdx := by unfold State.wireWord; split <;> simp
@[simp] theorem State.wireWord_pending (l : Fin 8) (w : LinkWord) : (s.wireWord l w).pending = s.pending := by unfold State.wireWord; split <;> simp

/-! ## `State.injectRun` -/

@[simp] theorem State.injectRun_published (l : Fin 8) (ws : List LinkWord) : (s.injectRun l ws).published = s.published := by
  simp only [State.injectRun, State.startWaiting_published]
  exact foldl_keeps (fun s : State => s.published) (fun s w => by simp [State.injectWord]) _ _
@[simp] theorem State.injectRun_store (l : Fin 8) (ws : List LinkWord) : (s.injectRun l ws).store = s.store := by
  simp only [State.injectRun, State.startWaiting_store]
  exact foldl_keeps (fun s : State => s.store) (fun s w => by simp [State.injectWord]) _ _
@[simp] theorem State.injectRun_freeIdx (l : Fin 8) (ws : List LinkWord) : (s.injectRun l ws).freeIdx = s.freeIdx := by
  simp only [State.injectRun, State.startWaiting_freeIdx]
  exact foldl_keeps (fun s : State => s.freeIdx) (fun s w => by simp [State.injectWord]) _ _
@[simp] theorem State.injectRun_pending (l : Fin 8) (ws : List LinkWord) : (s.injectRun l ws).pending = s.pending := by
  simp only [State.injectRun, State.startWaiting_pending]
  exact foldl_keeps (fun s : State => s.pending) (fun s w => by simp [State.injectWord]) _ _

/-! ## `State.clearOne` -/

@[simp] theorem State.clearOne_published (l : Fin 8) : (s.clearOne l).published = s.published := by simp [State.clearOne]
@[simp] theorem State.clearOne_store (l : Fin 8) : (s.clearOne l).store = s.store := by simp [State.clearOne]
@[simp] theorem State.clearOne_freeIdx (l : Fin 8) : (s.clearOne l).freeIdx = s.freeIdx := by simp [State.clearOne]
@[simp] theorem State.clearOne_pending (l : Fin 8) : (s.clearOne l).pending = s.pending := by simp [State.clearOne]

end Sys2Proof.Machine
end

