-- ==== Sys2Proof/Laws/Memory.lean ====
section
/-! SUPPORT. The image area as memory: a byte written reads back, every other byte stands, and every write keeps the
canonical form. -/

namespace Sys2Proof.Machine

/-- Reading a byte that no entry lists. -/
theorem Image.read_of_not_mem {m : List Host.Cell} {a : Nat} (h : ∀ c ∈ m, c.1 ≠ a) :
    Image.read m a = Config.erasedByte := by
  induction m with
  | nil => rfl
  | cons c m ih =>
    obtain ⟨k, b⟩ := c
    have hk : k ≠ a := h (k, b) (List.mem_cons_self ..)
    simp only [Image.read, hk, if_false]
    exact ih fun d hd => h d (List.mem_cons_of_mem _ hd)

/-- Dropping the entry of one address leaves it erased. -/
theorem Image.read_filter_self (m : List Host.Cell) (a : Nat) :
    Image.read (m.filter fun c => c.1 ≠ a) a = Config.erasedByte :=
  Image.read_of_not_mem fun c hc => by simpa using (List.mem_filter.mp hc).2

/-- Dropping the entry of one address leaves every other byte. -/
theorem Image.read_filter_ne (m : List Host.Cell) {a x : Nat} (h : x ≠ a) :
    Image.read (m.filter fun c => c.1 ≠ a) x = Image.read m x := by
  induction m with
  | nil => rfl
  | cons c m ih =>
    obtain ⟨k, b⟩ := c
    by_cases hk : k = a
    · subst hk
      have : Image.read ((k, b) :: m) x = Image.read m x := by simp [Image.read, Ne.symm h]
      simpa [this] using ih
    · simp only [ne_eq, hk, not_false_eq_true, decide_true, List.filter_cons_of_pos, Image.read]
      by_cases hx : k = x
      · simp [hx]
      · simpa [hx] using ih

/-- An inserted byte reads back. -/
theorem Image.read_insert_self (m : List Host.Cell) (a : Nat) (b : Byte) : Image.read (Image.insert a b m) a = b := by
  induction m with
  | nil => simp [Image.insert, Image.read]
  | cons c m ih =>
    obtain ⟨k, d⟩ := c
    simp only [Image.insert]
    split
    · simp [Image.read]
    · split
      · simp [Image.read]
      · rename_i h1 h2
        simp [Image.read, Ne.symm h2, ih]

/-- An inserted byte leaves every other byte. -/
theorem Image.read_insert_ne (m : List Host.Cell) {a x : Nat} (b : Byte) (h : x ≠ a) :
    Image.read (Image.insert a b m) x = Image.read m x := by
  induction m with
  | nil => simp [Image.insert, Image.read, Ne.symm h]
  | cons c m ih =>
    obtain ⟨k, d⟩ := c
    simp only [Image.insert]
    split
    · simp [Image.read, Ne.symm h]
    · split
      · rename_i h2
        subst h2
        simp [Image.read, Ne.symm h]
      · simp [Image.read, ih]

/-- A byte written reads back (R180). -/
@[simp] theorem Image.read_write_self (m : List Host.Cell) (a : Nat) (b : Byte) :
    Image.read (Image.write a b m) a = b := by
  unfold Image.write
  split
  · rename_i h; rw [h]; exact Image.read_filter_self m a
  · exact Image.read_insert_self m a b

/-- A write leaves every other byte (R180). -/
@[simp] theorem Image.read_write_ne (m : List Host.Cell) {a x : Nat} (b : Byte) (h : x ≠ a) :
    Image.read (Image.write a b m) x = Image.read m x := by
  unfold Image.write
  split
  · exact Image.read_filter_ne m h
  · exact Image.read_insert_ne m b h

/-- What an insertion may list. -/
theorem Image.mem_insert {m : List Host.Cell} {a : Nat} {b : Byte} {c : Host.Cell} (h : c ∈ Image.insert a b m) :
    c = (a, b) ∨ c ∈ m := by
  induction m with
  | nil => simpa [Image.insert] using h
  | cons d m ih =>
    obtain ⟨k, e⟩ := d
    simp only [Image.insert] at h
    split at h
    · simpa using h
    · split at h
      · simp only [List.mem_cons] at h ⊢; tauto
      · simp only [List.mem_cons] at h ⊢
        rcases h with h | h
        · tauto
        · rcases ih h with h | h <;> tauto

/-- An insertion keeps the addresses rising. -/
theorem Image.insert_pairwise {m : List Host.Cell} (a : Nat) (b : Byte) (h : m.Pairwise fun x y => x.1 < y.1) :
    (Image.insert a b m).Pairwise fun x y => x.1 < y.1 := by
  induction m with
  | nil => simp [Image.insert]
  | cons d m ih =>
    obtain ⟨k, e⟩ := d
    obtain ⟨h1, h2⟩ := List.pairwise_cons.mp h
    simp only [Image.insert]
    split
    · rename_i hlt
      refine List.pairwise_cons.mpr ⟨?_, h⟩
      intro c hc
      rcases List.mem_cons.mp hc with rfl | hc
      · exact hlt
      · exact Nat.lt_trans hlt (h1 c hc)
    · split
      · rename_i heq
        subst heq
        exact List.pairwise_cons.mpr ⟨h1, h2⟩
      · rename_i hn1 hn2
        refine List.pairwise_cons.mpr ⟨?_, ih h2⟩
        intro c hc
        rcases Image.mem_insert hc with rfl | hc
        · show k < a; omega
        · exact h1 c hc

/-- A write inside the area keeps the canonical form. -/
theorem Image.write_wf {m : List Host.Cell} {a : Nat} (b : Byte) (ha : a < Config.imageSize) (h : Image.wf m) :
    Image.wf (Image.write a b m) := by
  obtain ⟨hp, hm⟩ := h
  unfold Image.write
  split
  · exact ⟨hp.filter _, fun c hc => hm c (List.mem_filter.mp hc).1⟩
  · rename_i hb
    refine ⟨Image.insert_pairwise a b hp, fun c hc => ?_⟩
    rcases Image.mem_insert hc with rfl | hc
    · exact ⟨ha, hb⟩
    · exact hm c hc

/-- The one operation that writes the image area keeps its canonical form (R180). -/
theorem Store.writeByte_wf {st : Store} (h : Image.wf st.image) : Image.wf st.writeByte.image := by
  unfold Store.writeByte
  split
  · split
    · rename_i hk; exact Image.write_wf _ hk h
    · exact h
  · exact h
  · exact h

/-- The image area at reset has the canonical form. -/
theorem State.reset_image_wf : Image.wf State.reset.store.image := ⟨List.Pairwise.nil, fun _ h => nomatch h⟩

/-- Two image areas in canonical form that read alike are equal: the form is one per content. -/
theorem Image.ext_of_wf {m m' : List Host.Cell} (h : Image.wf m) (h' : Image.wf m')
    (e : ∀ a, Image.read m a = Image.read m' a) : m = m' := by
  induction m generalizing m' with
  | nil =>
    cases m' with
    | nil => rfl
    | cons c m' =>
      obtain ⟨k, b⟩ := c
      have := e k
      simp only [Image.read, if_true] at this
      exact absurd this.symm (h'.2 (k, b) (List.mem_cons_self ..)).2
  | cons c m ih =>
    obtain ⟨k, b⟩ := c
    obtain ⟨hp1, hp2⟩ := List.pairwise_cons.mp h.1
    have hb := (h.2 (k, b) (List.mem_cons_self ..)).2
    cases m' with
    | nil =>
      have := e k
      simp only [Image.read, if_true] at this
      exact absurd this hb
    | cons c' m' =>
      obtain ⟨k', b'⟩ := c'
      obtain ⟨hq1, hq2⟩ := List.pairwise_cons.mp h'.1
      have hb' := (h'.2 (k', b') (List.mem_cons_self ..)).2
      have hk : k = k' := by
        rcases Nat.lt_trichotomy k k' with hlt | heq | hgt
        · have h1 : Image.read ((k', b') :: m') k = Config.erasedByte :=
            Image.read_of_not_mem fun d hd => by
              rcases List.mem_cons.mp hd with rfl | hd
              · exact Nat.ne_of_gt hlt
              · exact Nat.ne_of_gt (Nat.lt_trans hlt (hq1 d hd))
          have := e k
          rw [h1] at this
          simp only [Image.read, if_true] at this
          exact absurd this hb
        · exact heq
        · have h1 : Image.read ((k, b) :: m) k' = Config.erasedByte :=
            Image.read_of_not_mem fun d hd => by
              rcases List.mem_cons.mp hd with rfl | hd
              · exact Nat.ne_of_gt hgt
              · exact Nat.ne_of_gt (Nat.lt_trans hgt (hp1 d hd))
          have := e k'
          rw [h1] at this
          simp only [Image.read, if_true] at this
          exact absurd this.symm hb'
      subst hk
      have hbb : b = b' := by simpa [Image.read] using e k
      subst hbb
      have hm : Image.wf m := ⟨hp2, fun d hd => h.2 d (List.mem_cons_of_mem _ hd)⟩
      have hm' : Image.wf m' := ⟨hq2, fun d hd => h'.2 d (List.mem_cons_of_mem _ hd)⟩
      have : m = m' := by
        apply ih hm hm'
        intro a
        have ha := e a
        simp only [Image.read] at ha
        by_cases hka : k = a
        · subst hka
          rw [Image.read_of_not_mem fun d hd => Nat.ne_of_gt (hp1 d hd),
            Image.read_of_not_mem fun d hd => Nat.ne_of_gt (hq1 d hd)]
        · simpa [hka] using ha
      rw [this]

end Sys2Proof.Machine
end

