-- ==== Sys2Proof/Laws/Ops.lean ====
section
/-! SUPPORT. What each shared operation does to the part of the state that it changes, said once (Laws/Frames.lean says what it
leaves alone). -/

namespace Sys2Proof.Machine

/-! ## Slot sets -/

/-- No set has the status exactly when the search finds none. -/
theorem Controller.setWith_eq_none {c : Controller} {st : SetStatus} :
    c.setWith st = none ↔ ∀ i, (c.sets.get i).status ≠ st := by
  simp [Controller.setWith]

/-- A set the search finds has the status. -/
theorem Controller.status_of_setWith {c : Controller} {st : SetStatus} {i : Fin 2} (h : c.setWith st = some i) :
    (c.sets.get i).status = st := by
  simpa using List.find?_some h

/-- The search finds a set that has the status where the other has not. -/
theorem Controller.setWith_eq_some {c : Controller} {st : SetStatus} {i : Fin 2} (h : (c.sets.get i).status = st)
    (ho : (c.sets.get (other i)).status ≠ st) : c.setWith st = some i := by
  cases hf : c.setWith st with
  | none => exact absurd h (setWith_eq_none.mp hf i)
  | some j =>
    have hj := status_of_setWith hf
    match i, j with
    | 0, 0 => rfl
    | 1, 1 => rfl
    | 0, 1 => exact absurd hj ho
    | 1, 0 => exact absurd hj ho

/-- The other of two is never the one. -/
theorem other_ne (i : Fin 2) : other i ≠ i := by revert i; decide

/-- The other of the other is the one. -/
@[simp] theorem other_other (i : Fin 2) : other (other i) = i := by revert i; decide

/-- Of two numbers, one that is not `i` is the other. -/
theorem eq_other {i j : Fin 2} (h : j ≠ i) : j = other i := by revert i j; decide

/-- A controller that differs from `c` at most by deliveries dropped from slots. -/
structure Controller.DropsOnly (c c' : Controller) : Prop where
  acc        : c'.acc = c.acc
  current    : c'.current = c.current
  lastClosed : c'.lastClosed = c.lastClosed
  closeLatch : c'.closeLatch = c.closeLatch
  lineStates : c'.lineStates = c.lineStates
  status     : ∀ i, (c'.sets.get i).status = (c.sets.get i).status
  interval   : ∀ i, (c'.sets.get i).interval = (c.sets.get i).interval
  lines      : ∀ i, (c'.sets.get i).lines = (c.sets.get i).lines
  mark       : ∀ i, (c'.sets.get i).mark = (c.sets.get i).mark
  links      : ∀ i l, (c'.sets.get i).links.get l = (c.sets.get i).links.get l ∨
                 ((c.sets.get i).status = .opened ∧ (c'.sets.get i).links.get l = none)

/-- Nothing dropped. -/
theorem Controller.DropsOnly.refl (c : Controller) : c.DropsOnly c where
  acc := rfl
  current := rfl
  lastClosed := rfl
  closeLatch := rfl
  lineStates := rfl
  status _ := rfl
  interval _ := rfl
  lines _ := rfl
  mark _ := rfl
  links _ _ := .inl rfl

/-- Drops one after another. -/
theorem Controller.DropsOnly.trans {a b c : Controller} (h : a.DropsOnly b) (h' : b.DropsOnly c) : a.DropsOnly c where
  acc := h'.acc.trans h.acc
  current := h'.current.trans h.current
  lastClosed := h'.lastClosed.trans h.lastClosed
  closeLatch := h'.closeLatch.trans h.closeLatch
  lineStates := h'.lineStates.trans h.lineStates
  status i := (h'.status i).trans (h.status i)
  interval i := (h'.interval i).trans (h.interval i)
  lines i := (h'.lines i).trans (h.lines i)
  mark i := (h'.mark i).trans (h.mark i)
  links i l := by
    rcases h'.links i l with e | ⟨e, e'⟩
    · rcases h.links i l with f | ⟨f, f'⟩
      · exact .inl (e.trans f)
      · exact .inr ⟨f, e.trans f'⟩
    · exact .inr ⟨(h.status i) ▸ e, e'⟩

/-- Drops leave every set's status, so the search finds the same set. -/
theorem Controller.DropsOnly.setWith {c c' : Controller} (h : c.DropsOnly c') (st : SetStatus) :
    c'.setWith st = c.setWith st := by
  simp only [Controller.setWith, h.status]

/-- With no window open there is nothing to drop. -/
theorem Controller.DropsOnly.eq_of_no_open {c c' : Controller} (h : c.DropsOnly c') (ho : c.setWith .opened = none) :
    c' = c := by
  have hs : c'.sets = c.sets := by
    apply Tab.ext_get
    intro i
    have hl : (c'.sets.get i).links = (c.sets.get i).links := by
      apply Tab.ext_get
      intro l
      rcases h.links i l with e | ⟨e, -⟩
      · exact e
      · exact absurd e (Controller.setWith_eq_none.mp ho i)
    have h1 := h.status i
    have h2 := h.interval i
    have h3 := h.lines i
    have h4 := h.mark i
    revert h1 h2 h3 h4 hl
    generalize c'.sets.get i = x
    generalize c.sets.get i = y
    cases x
    cases y
    simp only
    rintro rfl rfl rfl rfl rfl
    rfl
  have h1 := h.acc
  have h2 := h.current
  have h3 := h.lastClosed
  have h4 := h.closeLatch
  have h5 := h.lineStates
  cases c
  cases c'
  simp only at hs h1 h2 h3 h4 h5
  subst hs h1 h2 h3 h4 h5
  rfl

/-! ## Quarantine -/

/-- A delivery dropped changes the controller by drops at most (R42). -/
theorem State.dropDelivery_drops (s : State) (l : Fin 8) : s.ctrl.DropsOnly (s.dropDelivery l).ctrl := by
  unfold State.dropDelivery
  cases ho : s.ctrl.setWith .opened with
  | none => exact .refl _
  | some i =>
    have hi := Controller.status_of_setWith ho
    refine ⟨rfl, rfl, rfl, rfl, rfl, fun j => ?_, fun j => ?_, fun j => ?_, fun j => ?_, fun j m => ?_⟩ <;>
      (simp only [State.putSet, Tab.get_set]; split)
    all_goals first
      | (rename_i h; subst h; rfl)
      | rfl
      | exact .inl rfl
      | skip
    rename_i h
    subst h
    rw [Tab.get_set]
    split
    · exact .inr ⟨hi, rfl⟩
    · exact .inl rfl

/-- A link derived anew: its quarantine state is that of its flags and the mask in force; no other link changes (R38). -/
theorem State.rederive_links_get (s : State) (l m : Fin 8) : (s.rederive l).links.get m =
    if l = m then
      { s.links.get l with quarantined := covered (s.links.get l).flags s.plant.active.global.quarantineMask }
    else s.links.get m := by
  unfold State.rederive
  dsimp only
  split <;> simp [State.putLink, Tab.get_set]

/-- A link derived anew changes the controller by drops at most (R42). -/
theorem State.rederive_drops (s : State) (l : Fin 8) : s.ctrl.DropsOnly (s.rederive l).ctrl := by
  unfold State.rederive
  dsimp only
  split
  · exact State.dropDelivery_drops (s.putLink l _) l
  · exact .refl _

/-- Links derived anew one after another. -/
theorem State.rederive_foldl (ls : List (Fin 8)) (s : State) :
    s.ctrl.DropsOnly (ls.foldl (fun s l => s.rederive l) s).ctrl ∧
    (ls.foldl (fun s l => s.rederive l) s).plant = s.plant ∧
    ∀ m, (ls.foldl (fun s l => s.rederive l) s).links.get m =
      if m ∈ ls then
        { s.links.get m with quarantined := covered (s.links.get m).flags s.plant.active.global.quarantineMask }
      else s.links.get m := by
  induction ls generalizing s with
  | nil => exact ⟨.refl _, rfl, fun m => by simp⟩
  | cons l ls ih =>
    obtain ⟨h1, h2, h3⟩ := ih (s.rederive l)
    refine ⟨(s.rederive_drops l).trans h1, h2.trans (by simp), fun m => ?_⟩
    rw [List.foldl_cons, h3 m]
    simp only [State.rederive_links_get, State.rederive_plant, List.mem_cons]
    by_cases hm : l = m
    · subst hm
      simp
    · have : ¬ m = l := fun h => hm h.symm
      simp [hm, this]

/-- Every link derived anew (R17, R38). -/
theorem State.rederiveAll_links_get (s : State) (m : Fin 8) : s.rederiveAll.links.get m =
    { s.links.get m with quarantined := covered (s.links.get m).flags s.plant.active.global.quarantineMask } := by
  have := (State.rederive_foldl (indices 8) s).2.2 m
  simpa [State.rederiveAll] using this

/-- Every link derived anew changes the controller by drops at most. -/
theorem State.rederiveAll_drops (s : State) : s.ctrl.DropsOnly s.rederiveAll.ctrl :=
  (State.rederive_foldl (indices 8) s).1

/-- One error event at a link: its counts, flags and quarantine state, and no other link (R38 to R40). -/
theorem State.errorEvent_links_get (s : State) (l m : Fin 8) (e : ErrorKind) : (s.errorEvent l e).links.get m =
    if l = m then
      let g := s.plant.active.global
      let k := s.links.get l
      let new := raiseCounter (g.wrapMask.get e) (k.counts.get e)
      let flags := k.flags.put e (k.flags.get e || (new != k.counts.get e && new.toNat == g.threshold))
      { k with counts := k.counts.put e new, flags := flags, quarantined := covered flags g.quarantineMask }
    else s.links.get m := by
  unfold State.errorEvent
  dsimp only
  simp only [State.rederive_links_get, State.notifyIf]
  split
  · split <;> simp [State.putLink]
  · split <;> simp [State.putLink, *]

/-- One error event changes the controller by drops at most. -/
theorem State.errorEvent_drops (s : State) (l : Fin 8) (e : ErrorKind) : s.ctrl.DropsOnly (s.errorEvent l e).ctrl := by
  unfold State.errorEvent
  dsimp only
  refine Controller.DropsOnly.trans ?_ (State.rederive_drops _ l)
  unfold State.notifyIf
  split <;> exact .refl _

/-! ## The apply (R14 to R18) -/

/-- An apply changes the controller by drops at most. -/
theorem State.applyMap_drops (s : State) : s.ctrl.DropsOnly s.applyMap.ctrl := by
  have h := State.rederiveAll_drops
    (((({ s with plant := ⟨s.plant.staged, s.plant.staged, false⟩ } : State).clearChangedSources s.plant.active
      s.plant.staged).retireFurnaces s.plant.active s.plant.staged).resetChangedLinks s.plant.active s.plant.staged)
  rw [State.resetChangedLinks_ctrl, State.retireFurnaces_ctrl, State.clearChangedSources_ctrl] at h
  unfold State.applyMap
  dsimp only [State.notify] at h ⊢
  exact h

/-- The same, told of the controller alone. -/
theorem State.applyMap_drops_of {s : State} {c : Controller} (h : s.ctrl = c) : c.DropsOnly s.applyMap.ctrl :=
  h ▸ s.applyMap_drops

/-- The plant map block after an apply (R14). -/
theorem State.applyMap_plant (s : State) : s.applyMap.plant = ⟨s.plant.staged, s.plant.staged, false⟩ := by
  simp [State.applyMap]

/-- The links after an apply (R17, R38). -/
theorem State.applyMap_links_get (s : State) (l : Fin 8) :
    let k := if (s.plant.active.links.get l).mode = (s.plant.staged.links.get l).mode then s.links.get l
      else { s.links.get l with rx := (s.links.get l).rx.modeChanged }
    s.applyMap.links.get l = { k with quarantined := covered k.flags s.plant.staged.global.quarantineMask } := by
  simp only [State.applyMap, State.notify, State.rederiveAll_links_get]
  simp [State.resetChangedLinks]

/-- The sources after an apply (R15). -/
theorem State.applyMap_sources (s : State) : s.applyMap.sources =
    ⟨s.sources.points.mapIdx fun p r =>
        if (s.plant.active.points.get p).enabled != (s.plant.staged.points.get p).enabled then r.toUnset else r,
      s.sources.lines.mapIdx fun l r =>
        if (s.plant.active.lines.get l).enabled != (s.plant.staged.lines.get l).enabled then r.toUnset else r⟩ := by
  simp [State.applyMap, State.clearChangedSources]

/-- The residues after an apply (R15). -/
theorem State.applyMap_residues (s : State) : s.applyMap.residues =
    s.residues.mapIdx fun p r =>
      if (s.plant.active.points.get p).enabled != (s.plant.staged.points.get p).enabled then 0 else r := by
  simp [State.applyMap, State.clearChangedSources]

/-! ## The start of a computation and closure (R55, R56, R126) -/

/-- What the start of a computation does to the controller: set `i` becomes COMPUTING, and a due apply drops at most. -/
theorem State.startComputation_drops (s : State) (i : Fin 2) :
    (s.putSet i { s.ctrl.sets.get i with status := .computing }).ctrl.DropsOnly (s.startComputation i).ctrl := by
  unfold State.startComputation
  dsimp only
  split <;> split
  · rw [State.applyPendingLags_ctrl]
    exact State.applyMap_drops_of rfl
  · exact .refl _
  · exact State.applyMap_drops_of rfl
  · exact .refl _

/-- The engine right after the start of a computation (R56): accumulators cleared and the states of the moment sampled. -/
theorem State.startComputation_engine (s : State) (i : Fin 2) :
    (s.startComputation i).engine = { Engine.idle with
      phase := .started
      lineStates := s.ctrl.lineStates
      furnaceStates := s.furnaces.mapIdx fun _ f => f.state
      quarantined := (s.startComputation i).links.mapIdx fun _ k => k.quarantined } := by
  unfold State.startComputation
  dsimp only
  split <;> split <;> simp

/-- The working copy right after the start of a computation (R139). -/
theorem State.startComputation_working (s : State) (i : Fin 2) :
    (s.startComputation i).working = some (.blank (s.ctrl.sets.get i).interval) := by
  unfold State.startComputation
  dsimp only
  split <;> split <;> simp

end Sys2Proof.Machine
end

