-- ==== Sys2Proof/Laws/PerInstr.lean ====
section
/-! SUPPORT. A statement about every command as syntax: the terms that a client port's command spells. -/

namespace Sys2Proof.Laws.CommandSpelling

/-- A term made from a named command and a transfer has that command's byte and that transfer, is well-formed, and carries the
level of WP_N where the command has one; an event of the part or of its pins is made from none (R164, 13.4). -/
def Statement (i : Instr) : Prop :=
  ∀ (c : Command) (t : Transfer) (wpN : Bool), instrOfCommand c t wpN = i →
    portCommand i = some (commandCode c, t) ∧ wellFormed i = true ∧ (wpNOf i = wpN ∨ wpNOf i = true)

/-- The statement at the term itself, command by command. -/
theorem of_command (c : Command) (t : Transfer) (wpN : Bool) :
    portCommand (instrOfCommand c t wpN) = some (commandCode c, t) ∧ wellFormed (instrOfCommand c t wpN) = true ∧
      (wpNOf (instrOfCommand c t wpN) = wpN ∨ wpNOf (instrOfCommand c t wpN) = true) := by
  cases c <;> simp [instrOfCommand, portCommand, wellFormed, wpNOf]

/-- A term that some command makes satisfies the statement. -/
theorem of_eq (i : Instr) : Statement i := fun c t wpN h => h ▸ of_command c t wpN

theorem readStatus (t : StatusRead) : Statement (.readStatus t) := of_eq _
theorem readId (t : Transfer) : Statement (.readId t) := of_eq _
theorem readNotices (t : Transfer) : Statement (.readNotices t) := of_eq _
theorem readResult (t : Transfer) : Statement (.readResult t) := of_eq _
theorem readBankRecord (t : BankRead) : Statement (.readBankRecord t) := of_eq _
theorem readPointState (t : Transfer) : Statement (.readPointState t) := of_eq _
theorem readQueue (t : Transfer) : Statement (.readQueue t) := of_eq _
theorem readLinkStatus (t : Transfer) : Statement (.readLinkStatus t) := of_eq _
theorem readStagedEntry (t : Transfer) : Statement (.readStagedEntry t) := of_eq _
theorem readActiveEntry (t : Transfer) : Statement (.readActiveEntry t) := of_eq _
theorem readStore (t : Transfer) (wpN : Bool) : Statement (.readStore t wpN) := of_eq _
theorem clearNotices (t : Transfer) : Statement (.clearNotices t) := of_eq _
theorem setNoticeMask (t : Transfer) : Statement (.setNoticeMask t) := of_eq _
theorem setFurnaceState (t : Transfer) : Statement (.setFurnaceState t) := of_eq _
theorem setLag (t : Transfer) : Statement (.setLag t) := of_eq _
theorem lineTally (t : Transfer) : Statement (.lineTally t) := of_eq _
theorem setLineState (t : Transfer) : Statement (.setLineState t) := of_eq _
theorem writeStagedEntry (t : Transfer) : Statement (.writeStagedEntry t) := of_eq _
theorem commit (t : Transfer) : Statement (.commit t) := of_eq _
theorem discardStaged (t : Transfer) : Statement (.discardStaged t) := of_eq _
theorem startAccounting (t : Transfer) : Statement (.startAccounting t) := of_eq _
theorem stopAccounting (t : Transfer) : Statement (.stopAccounting t) := of_eq _
theorem closePeriod (t : Transfer) : Statement (.closePeriod t) := of_eq _
theorem accountingReset (t : Transfer) : Statement (.accountingReset t) := of_eq _
theorem clearLinkCounters (t : Transfer) : Statement (.clearLinkCounters t) := of_eq _
theorem injectWords (t : Transfer) : Statement (.injectWords t) := of_eq _
theorem saveImage (t : Transfer) : Statement (.saveImage t) := of_eq _
theorem loadImage (t : Transfer) : Statement (.loadImage t) := of_eq _
theorem setStoreProtect (t : Transfer) (wpN : Bool) : Statement (.setStoreProtect t wpN) := of_eq _
theorem unknown (code : Byte) (t : Transfer) : Statement (.unknown code t) := of_eq _
theorem imark (pmark : Bool) : Statement (.imark pmark) := of_eq _
theorem linkWord (link : Fin 8) (w : LinkWord) : Statement (.linkWord link w) := of_eq _
theorem pinReset : Statement (.pinReset) := of_eq _
theorem startUpReadDone : Statement (.startUpReadDone) := of_eq _
theorem imageByteWrite : Statement (.imageByteWrite) := of_eq _
theorem saveComplete : Statement (.saveComplete) := of_eq _
theorem loadComplete : Statement (.loadComplete) := of_eq _
theorem reconciliationStage : Statement (.reconciliationStage) := of_eq _
theorem conversionStage : Statement (.conversionStage) := of_eq _
theorem residenceQueueStage : Statement (.residenceQueueStage) := of_eq _
theorem furnaceSplit : Statement (.furnaceSplit) := of_eq _
theorem poolSplit : Statement (.poolSplit) := of_eq _
theorem totalsStage : Statement (.totalsStage) := of_eq _
theorem completion : Statement (.completion) := of_eq _

end Sys2Proof.Laws.CommandSpelling
end

