-- ==== Sys2Proof/Laws/Pins.lean ====
section
/-! SUPPORT. What the pins of a port do over a transaction, said once for both SPI modes (R161, R176). -/

namespace Sys2Proof

/-- Clocking bits appends them to the bits sampled, and leaves SCK high. In mode 0 SCK is low at the fall of CS_N, so the first
bit has no falling edge before it. -/
theorem Serial.run_clockBits (mode : SpiMode) (bits : List Bool) (sck : Bool) (got : List Bool) (falls : Nat) :
    (Serial.active mode sck got falls).run (clockBits bits) =
      (.active mode (sck || !bits.isEmpty) (got ++ bits)
        (falls + if sck then bits.length else bits.length - 1), []) := by
  induction bits generalizing sck got falls with
  | nil => cases sck <;> simp [clockBits, Serial.run]
  | cons b bs ih =>
    have h := ih true (got ++ [b]) (falls + if sck then 1 else 0)
    cases sck <;> simp_all [clockBits, Serial.run, Serial.next]
    omega

/-- The edges of SCK in a transaction: as many falls as bits sampled, but that in mode 0 the fall after the last bit, and in mode 3
the rise of the next bit, may be still to come (R161). -/
theorem Serial.run_edges (ps : List PinSample) (mode : SpiMode) (sck : Bool) (bits : List Bool) (falls : Nat) (x : Serial)
    (hx : ∀ m k b f, x = .active m k b f → f + k.toNat = b.length + (m == .mode3).toNat)
    (h : (x.run ps).1 = .active mode sck bits falls) :
    falls + sck.toNat = bits.length + (mode == .mode3).toNat := by
  induction ps generalizing x with
  | nil => exact hx mode sck bits falls h
  | cons p ps ih =>
    refine ih (x.next p).1 (fun m k b f e => ?_) h
    cases x with
    | idle csN =>
      simp only [Serial.next] at e
      split at e
      · cases e
        cases hs : p.sck <;> rfl
      · cases e
    | active m' k' b' f' =>
      have hold := hx m' k' b' f' rfl
      simp only [Serial.next] at e
      split at e
      · cases e
      · cases e
        cases k' <;> cases hs : p.sck <;> simp_all
        omega

/-- The whole bytes among bits sampled. -/
theorem bytesOfBits_length (bits : List Bool) : (bytesOfBits bits).length = bits.length / 8 := by
  fun_induction bytesOfBits bits with
  | case1 b7 b6 b5 b4 b3 b2 b1 b0 rest ih => simp only [List.length_cons, ih]; omega
  | case2 bits h =>
    match bits, h with
    | [], _ | [_], _ | [_, _], _ | [_, _, _], _ | [_, _, _, _], _ | [_, _, _, _, _], _ | [_, _, _, _, _, _], _
    | [_, _, _, _, _, _, _], _ => simp
    | b7 :: b6 :: b5 :: b4 :: b3 :: b2 :: b1 :: b0 :: rest, h => exact absurd rfl (h b7 b6 b5 b4 b3 b2 b1 b0 rest)

/-- Bit `k` of several bytes: bit `7 - k mod 8` of byte `k / 8`, most significant first (R161). -/
theorem bitsOfBytes_getElem? (bs : List Byte) (k : Nat) (h : k / 8 < bs.length) :
    (bitsOfBytes bs)[k]? = some ((bs.getD (k / 8) 0).getLsbD (7 - k % 8)) := by
  induction bs generalizing k with
  | nil => simp at h
  | cons b bs ih =>
    have hc : bitsOfBytes (b :: bs) = bitsOfByte b ++ bitsOfBytes bs := rfl
    rw [hc]
    by_cases hk : k < 8
    · rw [List.getElem?_append_left (by simpa [bitsOfByte] using hk)]
      interval_cases k <;> rfl
    · obtain ⟨j, rfl⟩ : ∃ j, k = j + 8 := ⟨k - 8, by omega⟩
      rw [List.getElem?_append_right (by simp [bitsOfByte])]
      have e1 : (j + 8) / 8 = j / 8 + 1 := by omega
      have e2 : (j + 8) % 8 = j % 8 := by omega
      rw [e1] at h ⊢
      rw [e2]
      simpa [bitsOfByte] using ih j (by simpa using h)

/-- A run over two stretches of samples one after the other. -/
theorem Serial.run_append (x : Serial) (ps qs : List PinSample) :
    x.run (ps ++ qs) = (((x.run ps).1.run qs).1, (x.run ps).2 ++ ((x.run ps).1.run qs).2) := by
  induction ps generalizing x with
  | nil => rfl
  | cons p ps ih => simp [Serial.run, ih]

/-- A transaction in either mode is the whole bytes of its bits. -/
theorem Serial.run_pinsOfBits (mode : SpiMode) (bits : List Bool) :
    (Serial.idle true).run (pinsOfBits mode bits) = (.idle true, [bytesOfBits bits]) := by
  have h : (Serial.idle true).run [⟨false, mode == .mode3, false⟩] =
      (.active mode (mode == .mode3) [] 0, []) := by cases mode <;> rfl
  have hcons : pinsOfBits mode bits =
      [⟨false, mode == .mode3, false⟩] ++ (clockBits bits ++ [⟨true, mode == .mode3, false⟩]) := rfl
  rw [hcons, Serial.run_append, h, Serial.run_append, Serial.run_clockBits]
  simp [Serial.run, Serial.next]

/-- The bits of a transaction spell its command in either mode. -/
theorem commandsOfPins_pinsOfBits (p : Port) (wpN : Bool) (mode : SpiMode) (bits : List Bool) :
    commandsOfPins p wpN (.idle true) (pinsOfBits mode bits) = (decodeTransaction p wpN (bytesOfBits bits)).toList := by
  rw [commandsOfPins, Serial.run_pinsOfBits]
  cases h : decodeTransaction p wpN (bytesOfBits bits) <;> simp [h]

/-- At the rising edge of bit `k` the part drives bit `k` of what it sends, in either mode. -/
theorem Serial.sdo_at_rising_edge (mode : SpiMode) (bits out : List Bool) (b : Bool) (h : out[bits.length]? = some b)
    (d : Bool) :
    (((Serial.idle true).run (⟨false, mode == .mode3, false⟩ :: clockBits (bits ++ [d]))).1).sdo out = .bit b := by
  cases mode <;>
    simp [Serial.run, Serial.next, spiModeAt, Serial.run_clockBits, Serial.sdo, h]

/-- While CS_N is high nothing is sampled, no transaction ends, and SDO is high-impedance. -/
theorem Serial.run_high (ps : List PinSample) (h : ∀ p ∈ ps, p.csN = true) (x : Bool) (hx : ps ≠ [] ∨ x = true)
    (out : List Bool) : ((Serial.idle x).run ps).2 = [] ∧ ((Serial.idle x).run ps).1.sdo out = .highZ := by
  induction ps generalizing x with
  | nil => exact ⟨rfl, by simp_all [Serial.run, Serial.sdo]⟩
  | cons p ps ih =>
    have hp := h p (by simp)
    have := ih (fun q hq => h q (List.mem_cons_of_mem p hq)) true (.inr rfl)
    simpa [Serial.run, Serial.next, hp] using this

/-- With CS_N low from the start nothing is taken until it has risen; the level on SDO meanwhile is unstated (R176; log entry 2). -/
theorem Serial.run_low (ps : List PinSample) (h : ∀ p ∈ ps, p.csN = false) :
    (Serial.idle false).run ps = (.idle false, []) := by
  induction ps with
  | nil => rfl
  | cons p ps ih =>
    have hp := h p (by simp)
    have := ih (fun q hq => h q (List.mem_cons_of_mem p hq))
    simp [Serial.run, Serial.next, hp, this]

/-! ## The bytes a port sends (R161) -/

namespace Machine

/-- A reply has one byte for each whole byte received and one more. -/
@[simp] theorem State.reply_length (p : Port) (wpN : Bool) (received : List Byte) (s : State) :
    (s.reply p wpN received).length = received.length + 1 := by
  simp [State.reply]

/-- With no READ STATUS in progress byte `k` of a reply is the one the port sends next after the first `k` bytes. -/
theorem State.reply_getElem? (p : Port) (wpN : Bool) (received : List Byte) (s : State)
    (h : (s.ports.get p).decoder = none) (k : Nat) (hk : k ≤ received.length) :
    (s.reply p wpN received)[k]? = some (s.nextByte p wpN (received.take k)) := by
  have hk' : k < received.length + 1 := by omega
  simp [State.reply, h, hk']

end Machine

end Sys2Proof
end

