-- ==== Sys2Proof/Tests/Slice0.lean ====
section
/-! SUPPORT. Small checks of the model: the smoke test of WellFormed, words and transactions written out from the spec's
encodings, one or two checks per command with results taken from the manual's rules and worked examples, and for every
statement with hypotheses a concrete state and operands that meet them. -/

open Sys2Proof Sys2Proof.Machine

namespace Sys2Proof.Tests

set_option Elab.async false

/-! ## Small states -/

/-- The part right after reset, with accounting state `a`. -/
def inState (a : AccState) : State := State.reset.setAcc a

/-- The state a command answers; the reset state where it answers none. -/
def after (c : Instr) (s : State) : State :=
  match exec c s with
  | .next t => t
  | .fault _ => State.reset
  | .refused _ => State.reset

/-- A map in force: link 0 LIVE and link 1 TEST with concentrator 9 and 4 points, link 2 OFF; furnace 0 and line 0 enabled;
hold limit 3, threshold 3, FORM in the quarantine mask. -/
def smallMap : PlantMap := { PlantMap.empty with
  global := ⟨3, 3, .const false, ⟨false, true, false, false⟩, false, 100⟩
  links := (PlantMap.empty.links.set 0 ⟨.live, 9, 4⟩).set 1 ⟨.test, 9, 4⟩
  furnaces := PlantMap.empty.furnaces.set 0 ⟨true, 1⟩
  lines := PlantMap.empty.lines.set 0 ⟨true, 0, 200, 1, .const 4 1⟩ }

/-- A state with both maps `m`. -/
def withMap (m : PlantMap) (s : State) : State := { s with plant := ⟨m, m, false⟩ }

/-- A state whose two sets have these statuses and interval numbers. -/
def withSets (a b : SetStatus) (na nb : BitVec 32) (s : State) : State :=
  { s with ctrl := { s.ctrl with
      sets := ⟨[{ SlotSet.free with status := a, interval := na }, { SlotSet.free with status := b, interval := nb }], rfl⟩ } }

/-- RUNNING under the small map with the window of interval 740 open in set 0. -/
def openState : State := withSets .opened .free 740 0 (withMap smallMap (inState .running))

/-- RUNNING under the small map with a computation of interval 7 in set 0 that has finished phase `p`. -/
def stageState (p : Phase) : State :=
  { withSets .computing .free 7 0 (withMap smallMap (inState .running)) with
    engine := { Engine.idle with phase := p }, working := some (.blank 7) }

/-- The same with the interval marked for a period end with cause MARK. -/
def markedState (p : Phase) : State :=
  let s := stageState p
  s.putSet 0 { s.ctrl.sets.get 0 with mark := some .mark }

/-! ## WellFormed: each check refuses an ill-formed term -/

theorem test_wellFormed_refuses_unknown_with_known_byte : wellFormed (.unknown 0x01 ⟨.m, []⟩) = false := by decide

theorem test_wellFormed_takes_unknown_byte : wellFormed (.unknown 0x0C ⟨.m, []⟩) = true := by decide

theorem test_exec_refuses_unknown_with_known_byte :
    exec (.unknown 0x82 ⟨.e, []⟩) State.reset = .refused .commandByteKnown := rfl

/-! ## Decoding: bits and bytes written out from 13.1 and 13.4 -/

/-- SET LAG, furnace 2, lag 5: 0x31 0x02 0x05. -/
theorem test_decode_setLag : decodeTransaction .m true [0x31, 0x02, 0x05] = some (.setLag ⟨.m, [0x02, 0x05]⟩) := by decide

/-- READ BANK RECORD, FROZEN, FURNACE, 3, TOTALS: 0x05 0x01 0x01 0x03 0x0F. -/
theorem test_decode_readBankRecord : decodeTransaction .e true [0x05, 0x01, 0x01, 0x03, 0x0F] =
    some (.readBankRecord ⟨⟨.e, [0x01, 0x01, 0x03, 0x0F]⟩, .inTurn⟩) := by decide

/-- SET STORE PROTECT 3 with WP_N low: 0x82 0x03. -/
theorem test_decode_setStoreProtect : decodeTransaction .e false [0x82, 0x03] = some (.setStoreProtect ⟨.e, [0x03]⟩ false) := by
  decide

/-- 0x53 is no command byte of 13.4. -/
theorem test_decode_unknown : decodeTransaction .f true [0x53] = some (.unknown 0x53 ⟨.f, []⟩) := by decide

/-- COMMIT, 0x51, bit by bit with three bits of a byte cut short. -/
theorem test_decode_bits : bytesOfBits [false, true, false, true, false, false, false, true, true, true, true] = [0x51] := by
  decide

/-- COMMIT, 0x51, on the pins in each SPI mode; and a fall of CS_N with no edge of SCK (R161). -/
theorem test_decode_pins (mode : SpiMode) :
    commandsOfPins .e true (.idle true) (pinsOfBits mode [false, true, false, true, false, false, false, true]) =
      [.commit ⟨.e, []⟩] ∧
    commandsOfPins .e true (.idle true) (pinsOfBits mode []) = [] := by cases mode <;> decide

/-- SDO drives the first bit of 0xA0 from the fall of CS_N in mode 0 and from the first falling edge of SCK in mode 3, and is
high-impedance while CS_N is high (R161). -/
theorem test_sdo :
    ((Serial.idle true).next ⟨false, false, false⟩).1.sdo (bitsOfBytes [0xA0]) = .bit true ∧
    ((Serial.idle true).next ⟨false, true, false⟩).1.sdo (bitsOfBytes [0xA0]) = .unstated ∧
    (((Serial.idle true).next ⟨false, true, false⟩).1.next ⟨false, false, false⟩).1.sdo (bitsOfBytes [0xA0]) = .bit true ∧
    ((Serial.idle true).next ⟨true, true, false⟩).1.sdo (bitsOfBytes [0xA0]) = .highZ := by decide

/-- The bytes of the table of R161: the status byte (UNCONFIGURED, store busy, NONE: 0x30), then 0xFF in a write and the copy in a
READ ID, whose vendor code begins with 0x4B (13.6). -/
theorem test_reply :
    (inState .unconfigured).reply .e true [0x51, 0x00] = [0x30, 0xFF, 0xFF] ∧
    (inState .unconfigured).reply .m true [0x02] = [0x30, 0x4B] ∧
    (inState .unconfigured).reply .f true [0x01, 0x00] = [0x30, 0x30, 0x30] := by decide +kernel

/-- In mode 0 the eighth falling edge brings the first bit of the byte after the command byte, though that byte has not come: high
after COMMIT, low after READ ID (0x4B); one bit time further READ ID sends a one (R161). -/
theorem test_sdo_level :
    let bits (b : Byte) := ⟨false, false, false⟩ :: clockBits (bitsOfByte b)
    let level (b : Byte) (more : List PinSample) :=
      (inState .unconfigured).sdoLevel .e true ((Serial.idle true).run (bits b ++ more)).1
    level 0x51 [⟨false, false, false⟩] = .bit true ∧ level 0x02 [⟨false, false, false⟩] = .bit false ∧
    level 0x02 [⟨false, false, false⟩, ⟨false, true, false⟩, ⟨false, false, false⟩] = .bit true ∧
    level 0x02 [⟨true, false, false⟩] = .highZ := by decide +kernel

/-- With CS_N still low after a pin reset no level is stated; once it has risen SDO is high-impedance (R161, R176). -/
theorem test_sdo_after_pin_reset :
    ((Serial.idle false).next ⟨false, true, false⟩).1.sdo (bitsOfBytes [0xA0]) = .unstated ∧
    ((Serial.idle false).next ⟨true, true, false⟩).1.sdo (bitsOfBytes [0xA0]) = .highZ := by decide

/-- A header word of 13.1: start low; REPORT (01), sequence 7 (0111), count 2 (00010), id 9 (01001), least significant bit
first; S 1, E 0, P; stop high. -/
theorem test_decode_link_word :
    linkWordOfBits ([false] ++ [true, false, false, true, false] ++ [false, true, false, false, false]
      ++ [true, true, true, false] ++ [true, false] ++ [true, false, true] ++ [true])
      = some ⟨0x5C49, true, false, true, true⟩ := by decide

theorem test_header_fields : headerOf 0x5C49 = some ⟨.report, 7, 2, 9⟩ := by decide

/-- The seven ones of 0x5C49 and S need P 0 for an even number; with P 1 the word is bad (R22). -/
theorem test_parity : wordGood ⟨0x5C49, true, false, false, true⟩ = true ∧ wordGood ⟨0x5C49, true, false, true, true⟩ = false
    ∧ wordGood ⟨0x5C49, true, false, false, false⟩ = false := by decide

/-! ## Reads -/

/-- BOOTING, store busy, NONE: 0x10 (R162). -/
theorem test_readStatus : ((after (.readStatus ⟨⟨.m, [0]⟩, .whole⟩) State.reset).ports.m).sent = [0x10, 0x10] := by decide

/-- A READ STATUS in two stretches: the second shows that BOOTING has ended, UNCONFIGURED with the store idle (R162). -/
theorem test_readStatus_follows_the_part :
    let s := after .startUpReadDone (after (.readStatus ⟨⟨.m, [0]⟩, .first⟩) State.reset)
    ((after (.readStatus ⟨⟨.m, [0]⟩, .last⟩) s).ports.m).sent = [0x10, 0x10, 0x20] ∧
    after (.readStatus ⟨⟨.f, [0]⟩, .further⟩) s = s := by decide +kernel

theorem test_readId : ((after (.readId ⟨.f, List.replicate 12 0⟩) State.reset).ports.f).sent.drop 1 =
    [0x4B, 0x57, 0x04, 0x12, 1, 4, 12, 4, 8, 16, 64, 1] := by decide

theorem test_readNotices : ((after (.readNotices ⟨.e, []⟩) ((inState .ready).notify .stopped)).ports.e).buffer.take 7 =
    [0x20, 0x00, 0, 0, 0, 0, 0] := by decide

theorem test_readNotices_booting : ((after (.readNotices ⟨.e, []⟩) State.reset).ports.e).lastResult = .refusedBusy := by decide

/-- An EMPTY published copy: DONE for HEADER, REFUSED_STATE for any other kind (R141). -/
theorem test_readResult_empty :
    ((after (.readResult ⟨.m, [0, 0, 0x0F]⟩) (inState .ready)).ports.m).lastResult = .done ∧
    ((after (.readResult ⟨.m, [1, 0, 0x0F]⟩) (inState .ready)).ports.m).lastResult = .refusedState := by decide

/-- The FROZEN role with no FROZEN bank (R158 order 5). -/
theorem test_readBankRecord_no_frozen :
    ((after (.readBankRecord ⟨⟨.m, [1, 0, 0, 0x0F]⟩, .inTurn⟩) (inState .ready)).ports.m).lastResult = .refusedState := by decide

theorem test_readBankRecord_active :
    ((after (.readBankRecord ⟨⟨.m, [0, 0, 0, 0x0F]⟩, .inTurn⟩) (inState .ready)).ports.m).buffer.take 6 = [0, 1, 0, 0, 0, 1] := by decide

/-- A read between a completion and its swap shows the interval added to the bank still ACTIVE: bank 0, ACTIVE, period 1, last 7,
count 1; the COMPLETION that follows makes the swap, after which the bank with period 2 is ACTIVE (R155). -/
theorem test_readBankRecord_before_swap :
    let s := after (.readBankRecord ⟨⟨.e, [0, 0, 0, 0x0F]⟩, .beforeSwap⟩) (markedState .totalled)
    s.ports.e.buffer.take 14 = [0, 1, 0, 0, 0, 1, 0, 0, 0, 7, 0, 0, 0, 1] ∧ s.ports.e.has .periodClosed = false ∧
    (after .completion s).activeBank.period = 2 ∧ (after .completion s).ports.e.has .periodClosed = true := by decide +kernel

theorem test_readPointState_range :
    (((after (.readPointState ⟨.m, [0, 128]⟩) (inState .ready)).ports.m).lastResult,
      ((after (.readPointState ⟨.m, [0, 128]⟩) (inState .ready)).ports.m).detail) = (.refusedRange, ⟨2, 128, 0⟩) := by decide

theorem test_readQueue_no_record :
    ((after (.readQueue ⟨.m, [3, 0]⟩) (inState .ready)).ports.m).detail = ⟨3, 3, 2⟩ := by decide

theorem test_readLinkStatus : ((after (.readLinkStatus ⟨.e, [0]⟩) openState).ports.e).buffer.take 5 = [1, 0, 0, 0, 0] := by decide

theorem test_readStagedEntry_padding :
    ((after (.readStagedEntry ⟨.e, [1, 0]⟩) openState).ports.e).buffer.take 7 = [1, 0, 1, 9, 4, 0, 0] := by decide

theorem test_readActiveEntry_range :
    ((after (.readActiveEntry ⟨.e, [1, 8]⟩) openState).ports.e).detail = ⟨1, 8, 0⟩ := by decide

/-- A new part's image area, with WP_N high (R183). -/
theorem test_readStore_busy : ((after (.readStore ⟨.e, [0xFF]⟩ true) (inState .ready)).ports.e).lastResult = .refusedBusy := by
  decide

/-! ## Writes of every port -/

/-- Transactions 5 and 7 of 11.8: clearing one of two masked notices keeps ALERT low, clearing both releases it. -/
theorem test_clearNotices :
    let s := ((inState .ready).onPort .f fun u => { u with mask := 0x0009, notices := 0x0009 })
    (after (.clearNotices ⟨.f, [0, 1]⟩) s).ports.f.alertLow = true ∧
    (after (.clearNotices ⟨.f, [0, 8]⟩) (after (.clearNotices ⟨.f, [0, 1]⟩) s)).ports.f.alertLow = false := by decide

theorem test_setNoticeMask :
    let s := after (.setNoticeMask ⟨.m, [0x20, 0x00]⟩) ((inState .ready).notify .stopped)
    s.ports.m.mask = 0x2000 ∧ s.ports.m.alertLow = true ∧ s.ports.f.alertLow = false := by decide

theorem test_unknown : ((after (.unknown 0x0C ⟨.m, []⟩) (inState .ready)).ports.m).lastResult = .unknown := by decide

theorem test_setFurnaceState : ((after (.setFurnaceState ⟨.m, [1, 2]⟩) (inState .ready)).furnaces.get 1).state = .heatup := by
  decide

theorem test_setFurnaceState_rights :
    ((after (.setFurnaceState ⟨.e, [1, 2]⟩) (inState .ready)).ports.e).lastResult = .refusedRights := by decide

/-- A lag is pending in RUNNING (R109). -/
theorem test_setLag : ((after (.setLag ⟨.m, [0, 63]⟩) openState).furnaces.get 0).pendingLag = some 63 ∧
    ((after (.setLag ⟨.m, [0, 64]⟩) openState).ports.m).detail = ⟨3, 0, 2⟩ := by decide

/-- 11.8, transactions 1 and 3 (on line 0): thirteen bytes are REFUSED_FORM, fourteen are taken. -/
theorem test_lineTally :
    ((after (.lineTally ⟨.f, [0, 0x02, 0xE4, 0, 0, 0, 9, 0, 0, 0, 8, 0x0A]⟩) openState).ports.f).lastResult = .refusedForm ∧
    (((after (.lineTally ⟨.f, [0, 0x02, 0xE4, 0, 0, 0, 9, 0, 0, 0, 8, 0x0A, 0x28]⟩) openState).ctrl.sets.get 0).lines.get 0)
      = some ⟨740, 9, 8, 2600⟩ := by decide

/-- 11.8, transaction 2: gob mass 0. -/
theorem test_lineTally_mass :
    ((after (.lineTally ⟨.f, [5, 0x02, 0xE4, 0, 0, 0, 9, 0, 0, 0, 8, 0, 0]⟩) openState).ports.f).detail = ⟨4, 5, 5⟩ := by decide

theorem test_setLineState : (after (.setLineState ⟨.f, [11, 1]⟩) openState).ctrl.lineStates.get 11 = .jobChange := by decide

theorem test_writeStagedEntry :
    ((after (.writeStagedEntry ⟨.e, [1, 3, 1, 9, 4] ++ List.replicate 29 7⟩) openState).plant.staged.links.get 3) = ⟨.live, 9, 4⟩ ∧
    ((after (.writeStagedEntry ⟨.e, [1, 3, 1, 9, 17] ++ List.replicate 29 7⟩) openState).ports.e).detail = ⟨1, 3, 3⟩ := by decide

/-- COMMIT of the empty map fails check 4 (R12); of the small map it is ACCEPTED in RUNNING (R13). -/
theorem test_commit : ((after (.commit ⟨.e, []⟩) (inState .ready)).ports.e).detail = ⟨3, 0, 4⟩ ∧
    (after (.commit ⟨.e, []⟩) openState).plant.commitPending = true := by decide +kernel

theorem test_commit_unconfigured :
    (after (.commit ⟨.e, []⟩) (withMap smallMap (inState .unconfigured))).ctrl.acc = .ready := by decide +kernel

theorem test_discardStaged :
    (after (.discardStaged ⟨.e, []⟩) ({ openState with plant := ⟨.empty, smallMap, false⟩ })).plant.staged.links.get 0 =
      ⟨.live, 9, 4⟩ := by decide

theorem test_startAccounting :
    let s := after (.startAccounting ⟨.e, [0, 0, 0x18, 0x2E]⟩) (withMap smallMap (inState .ready))
    s.ctrl.acc = .running ∧ s.ctrl.current = 6190 ∧ s.ctrl.lastClosed = 6189 := by decide

theorem test_stopAccounting : (after (.stopAccounting ⟨.e, []⟩) openState).ctrl.acc = .stopping ∧
    ((after (.stopAccounting ⟨.e, []⟩) openState).ctrl.sets.get 0).mark = some .stop := by decide +kernel

theorem test_closePeriod : (after (.closePeriod ⟨.e, []⟩) openState).ctrl.closeLatch = true ∧
    ((after (.closePeriod ⟨.e, []⟩) (inState .ready)).ports.e).lastResult = .refusedState := by decide

theorem test_accountingReset : (after (.accountingReset ⟨.e, []⟩) (stageState .queued)).ctrl.acc = .ready ∧
    ((after (.accountingReset ⟨.e, []⟩) (stageState .queued)).ports.f).has .accReset = true := by decide

/-! ## Marks and links -/

/-- An IMARK opens the window of the interval it ends (R52); one while the engine computes is an OVERRUN (R53). -/
theorem test_imark :
    ((after (.imark true) (withMap smallMap (inState .running))).ctrl.sets.get 0).mark = some .mark ∧
    (after (.imark true) (withMap smallMap (inState .running))).ctrl.current = 1 ∧
    ((after (.imark true) (stageState .queued)).ports.m).notices = 0x0180 := by decide +kernel

/-- 2.8, words 14 to 17: the frame is taken with one SEQUENCE event. -/
theorem test_link_frame :
    receiveWords ⟨.live, 9, 4⟩ (frameWords ⟨.report, 10, 1, 9⟩ 1204 [⟨500400, false, false⟩]) ⟨.hunt, true, 7, true, 121, 3⟩ =
      (⟨.hunt, false, 10, true, 122, 3⟩, [.sequence], [⟨.report, 1204, [⟨500400, false, false⟩]⟩]) := by decide +kernel

/-- 2.8, words 8 to 13: a HEARTBEAT whose tag lacks E is discarded with FORM; a stray run costs one FORM event. -/
theorem test_link_stray :
    receiveWords ⟨.live, 9, 4⟩ [goodWord (headerData ⟨.heartbeat, 8, 0, 9⟩) true false, goodWord 1203 false false,
      goodWord 0 false false, goodWord 0 false true, goodWord 0 false false, goodWord 0 false false] ⟨.hunt, false, 7, true, 121, 2⟩ =
      (⟨.hunt, true, 7, true, 121, 3⟩, [.form, .form], []) := by decide +kernel

theorem test_linkWord : ((after (.linkWord 0 (goodWord 0x5C49 true false)) openState).links.get 0).rx.decoder =
    .tag ⟨.report, 7, 2, 9⟩ ∧ after (.linkWord 2 (goodWord 0x5C49 true false)) openState = openState := by decide +kernel

theorem test_injectWords :
    ((after (.injectWords ⟨.e, [1, 0x04, 0x5C, 0x49]⟩) openState).links.get 1).rx.decoder = .tag ⟨.report, 7, 2, 9⟩ ∧
    ((after (.injectWords ⟨.e, [0, 0x04, 0x5C, 0x49]⟩) openState).ports.e).lastResult = .refusedState := by decide +kernel

/-- 3.7, event 3: FORM reaches the threshold of 3, is flagged, and quarantines the link. -/
theorem test_quarantine :
    let s := (((openState.errorEvent 0 .form).errorEvent 0 .form).errorEvent 0 .form)
    (s.links.get 0).quarantined = true ∧ s.ports.m.has .linkThreshold = true := by decide +kernel

/-- 3.7, event 6: the clear frees it. -/
theorem test_clearLinkCounters :
    let s := (((openState.errorEvent 0 .form).errorEvent 0 .form).errorEvent 0 .form)
    ((after (.clearLinkCounters ⟨.e, [0]⟩) s).links.get 0).quarantined = false ∧
    ((after (.clearLinkCounters ⟨.e, [8]⟩) s).ports.e).detail = ⟨1, 8, 0⟩ := by decide +kernel

/-! ## Store, start-up, reset -/

/-- A state in READY with the store idle and LOCK and FREEZE set, as in 12.8 after event 4. -/
def protectedState : State :=
  let s := inState .ready
  { s with store := { s.store with busy := false, lock := true, freeze := true } }

theorem test_saveImage : ((after (.saveImage ⟨.e, []⟩) protectedState).ports.e).lastResult = .refusedProtected := by decide

theorem test_setStoreProtect : ((after (.setStoreProtect ⟨.e, [2]⟩ false) protectedState).ports.e).lastResult = .refusedProtected ∧
    (after (.setStoreProtect ⟨.e, [2]⟩ true) protectedState).store.lock = false := by decide

theorem test_loadImage : (after (.loadImage ⟨.e, []⟩) protectedState).store.op = .load := by decide

/-- A new part: step 1 fails, the map is empty, IMAGE_FAULT is set, the state is UNCONFIGURED (R178, R179). -/
theorem test_startUpReadDone : (after .startUpReadDone State.reset).ctrl.acc = .unconfigured ∧
    (after .startUpReadDone State.reset).store.failedStep = 1 ∧
    ((after .startUpReadDone State.reset).ports.f).has .imageFault = true := by decide +kernel

/-- The first two bytes of an image are the format tag 0x5E12 (13.7). -/
theorem test_imageByteWrite :
    let s := after .imageByteWrite (after .imageByteWrite (after (.saveImage ⟨.e, []⟩)
      ({ protectedState with store := { protectedState.store with lock := false } })))
    Image.read s.store.image 0 = 0x5E ∧ Image.read s.store.image 1 = 0x12 ∧ Image.read s.store.image 2 = 0xFF := by decide +kernel

theorem test_saveComplete :
    let s := after .saveComplete
      { protectedState with store := { protectedState.store with busy := true, op := .save .empty (.const 4 0) 4096 } }
    s.store.busy = false ∧ s.store.outcome = .written ∧ s.ports.m.has .storeDone = true := by decide

theorem test_loadComplete :
    let s := after .loadComplete { protectedState with store := { protectedState.store with busy := true, op := .load } }
    s.store.outcome = .bad ∧ s.ports.m.has .imageFault = true := by decide +kernel

theorem test_pinReset : (after .pinReset (withMap smallMap protectedState)).ctrl.acc = .booting ∧
    (after .pinReset protectedState).store.lock = true := by decide

/-! ## The stages: the manual's worked figures -/

/-- 5.10, interval 104: increment 600 after two estimates of 400 books 0 and leaves a debt of 200. -/
theorem test_reconcile_debt : (CounterSet.delivered 16777216 1000 .estimating 2 501000 ⟨500400, 800, 0, 400, 400⟩).1 =
    ⟨501000, 0, 200, 200, 0⟩ := by decide

/-- 5.10, interval 105: 350 repays the debt and books 150. -/
theorem test_reconcile_repay : (CounterSet.delivered 16777216 1000 .tracking 0 501350 ⟨501000, 0, 200, 200, 0⟩).1 =
    ⟨501350, 0, 0, 350, 150⟩ := by decide

theorem test_reconciliationStage : (after .reconciliationStage (stageState .started)).engine.phase = .reconciled := by decide +kernel

/-- 6.8. -/
theorem test_convert : energyProduct 3200 33096 688128 = 2224051200 ∧ segmentOf 3200 8191 = 6 ∧
    (50000 + 2224051200) / 65536 = 33937 ∧ (50000 + 2224051200) % 65536 = 5968 := by decide

/-- 6.9, interval 803: the segment is limited to 15. -/
theorem test_segment : segmentOf 2200 1000 = 15 ∧ segmentOf 400 1000 = 6 ∧ energyProduct 2200 31000 19661 = 40920416 := by decide

theorem test_conversionStage : (after .conversionStage (stageState .reconciled)).engine.phase = .converted := by decide +kernel

/-- 7.6, interval 202: with lag 1, three records leave. -/
theorem test_queue :
    let r (n : BitVec 32) (e : Nat) : QueueRecord := ⟨n, ⟨e, 0, 0, 0⟩, .empty⟩
    let x := queueEffect 202 .melt ⟨96000, 0, 0, 0⟩ .empty ⟨.melt, [r 199 92000, r 200 95000, r 201 94000], 1, none⟩
    x.queue = [r 202 96000] ∧ queueContent x.released = ⟨281000, 0, 0, 0⟩ := by decide

theorem test_residenceQueueStage : ((after .residenceQueueStage (stageState .converted)).engine.released.get 0).records = 1 := by
  decide +kernel

/-- 8.8, F0 FUEL: the leftover kilojoule goes to L2. -/
theorem test_split : (indices 12).map (share 1000003 ⟨[960000, 720000, 320000, 0, 0, 0, 0, 0, 0, 0, 0, 0], rfl⟩) =
    [480001, 360001, 160001, 0, 0, 0, 0, 0, 0, 0, 0, 0] := by decide +kernel

theorem test_furnaceSplit : (after .furnaceSplit (stageState .queued)).engine.phase = .furnaceSplit := by decide +kernel

theorem test_poolSplit : (after .poolSplit (stageState .furnaceSplit)).engine.phase = .poolSplit := by decide +kernel

/-- 9.6, its seven rows. -/
theorem test_specificEnergy : seOf 580001 960000 50 = 60417 ∧ seOf 580001 883200 50 = 65670 ∧ seOf 1120003 2000000 100 = 56000 ∧
    seOf 25 40000 1 = 63 ∧ seOf 400000 480000 50 = 16777215 ∧ seOf 250000 0 100 = 16777215 ∧
    seOf 200000000 10000 1 = 16777214 := by decide

theorem test_totalsStage : (after .totalsStage (stageState .poolSplit)).engine.phase = .totalled := by decide +kernel

theorem test_completion : ((after .completion (stageState .totalled)).ports.e).has .intervalDone = true ∧
    (after .completion (stageState .totalled)).activeBank.count = 1 ∧
    ((after .completion (stageState .totalled)).ctrl.sets.get 0).status = .free := by decide +kernel

/-! ## Witnesses: for every statement with hypotheses, a state and operands that meet them, each clause at a boundary -/

theorem witness_StepRunsTheFrontCommand : State.reset.pending = [] := rfl

theorem witness_TransactionBitsDecodeToTheirCommand :
    wellFormed (.unknown 0xFF ⟨.f, [1]⟩) = true ∧ portCommand (.unknown 0xFF ⟨.f, [1]⟩) = some (0xFF, ⟨.f, [1]⟩) ∧
    wellFormed (.readStore ⟨.m, [0xFF]⟩ false) = true ∧ portCommand (.readStore ⟨.m, [0xFF]⟩ false) = some (0x0B, ⟨.m, [0xFF]⟩) ∧
    ([] : List Bool).length < 8 ∧ (List.replicate 7 true).length < 8 := by decide

/-- The clauses of SDO: the serial side idle, in mode 0, and in mode 3 before and after a falling edge; a command byte that names
none, a write, a read before and with its last selector byte, a transaction of each; a READ STATUS in progress. -/
theorem witness_TransactionBitsDecodeToTheirCommand_sdo :
    ((Serial.idle true).run []).1 = .idle true ∧
    ((Serial.idle true).run [⟨false, false, false⟩]).1 = .active .mode0 false [] 0 ∧
    ((Serial.idle true).run [⟨false, true, false⟩]).1 = .active .mode3 true [] 0 ∧
    ((Serial.idle true).run [⟨false, true, false⟩, ⟨false, false, false⟩]).1 = .active .mode3 false [] (0 + 1) ∧
    (State.reset.ports.get .f).decoder = none ∧ commandOfCode 0xFF = none ∧ isWrite .commit = true ∧
    isWrite .readQueue = false ∧ Command.readQueue ≠ .readStatus ∧ ([] : List Byte).length < selectorCount .readQueue ∧
    selectorCount .readQueue ≤ ([0, 0] : List Byte).length ∧
    decodeTransaction .f true [0x51] = some (.commit ⟨.f, []⟩) ∧
    ((after (.readStatus ⟨⟨.m, []⟩, .first⟩) State.reset).ports.get .m).decoder ≠ none ∧
    ((after (.readStatus ⟨⟨.m, []⟩, .first⟩) State.reset).ports.get .m).sent.length ≤ ([] : List Byte).length + 1 := by decide

theorem witness_ReadStatusAndReadIdAlwaysAnswer :
    (State.reset.ports.get .m).decoder = none ∧
    ((after (.readStatus ⟨⟨.m, []⟩, .first⟩) State.reset).ports.get .m).decoder = some ⟨0x01, 1, []⟩ := by decide

/-- The one hypothesis of the statements about a port command outside BOOTING, in each of the other four states. -/
theorem witness_not_booting : (inState .unconfigured).ctrl.acc ≠ .booting ∧ (inState .ready).ctrl.acc ≠ .booting ∧
    (inState .running).ctrl.acc ≠ .booting ∧ (inState .stopping).ctrl.acc ≠ .booting := by decide

theorem witness_AlertIsLowExactlyOnAMaskedSetNotice : Port.f ≠ Port.m := by decide

theorem witness_ReadsRefusedBeforeTheirOwner :
    isWrite .readBankRecord = false ∧ Command.readBankRecord ≠ .readStatus ∧
    ([0, 0, 0] : List Byte).length < selectorCount .readBankRecord ∧
    selectorCount .readBankRecord ≤ ([0, 0, 0, 0] : List Byte).length ∧ Command.readBankRecord ≠ .readId ∧
    State.reset.ctrl.acc = .booting := by decide

theorem witness_WritesRefusedBeforeTheirOwner :
    isWrite .setLag = true ∧ State.reset.ctrl.acc = .booting ∧ (inState .ready).ctrl.acc ≠ .booting ∧
    hasRight .f .setLag = false ∧ hasRight .m .setLag = true ∧ lengthSuits .setLag (1 + ([0] : List Byte).length) = false ∧
    lengthSuits .setLag (1 + ([0, 0, 0] : List Byte).length) = false := by decide

theorem witness_UnknownCommandByteHasNoEffect :
    commandOfCode 0x00 = none ∧ commandOfCode 0x83 = none ∧ commandOfCode 0x01 ≠ none ∧ commandOfCode 0x82 ≠ none := by decide

theorem witness_ReadLinkStatusCopiesTheLink :
    (inState .ready).ctrl.acc ≠ .booting ∧ (7 : Byte).toNat = (7 : Fin 8).val ∧ 7 < (8 : Byte).toNat := by decide

theorem witness_ReadEntriesCopyTheMaps :
    (inState .ready).ctrl.acc ≠ .booting ∧ 6 < (7 : Byte).toNat ∧
    (tableEntries (6 : Byte).toNat = some 8 ∧ 8 ≤ (8 : Byte).toNat ∧ (7 : Byte).toNat < 8) ∧
    (tableEntries (0 : Byte).toNat = some 1 ∧ 1 ≤ (1 : Byte).toNat ∧ (0 : Byte).toNat < 1) := by decide

theorem witness_ReadPointStateCopiesTheRecord :
    (inState .ready).ctrl.acc ≠ .booting ∧ (127 : Byte).toNat = (127 : Fin 128).val ∧ (11 : Byte).toNat = (11 : Fin 12).val ∧
    127 < (128 : Byte).toNat ∧ 11 < (12 : Byte).toNat ∧ 1 < (2 : Byte).toNat := by decide

/-- A furnace whose queue holds 63 records, so that selector 62 names its last. -/
def fullQueue : State :=
  (inState .ready).putFurnace 3 ⟨.melt, List.replicate 63 ⟨1, .zero, .empty⟩, 63, none⟩

theorem witness_ReadQueueCopiesTheView :
    fullQueue.ctrl.acc ≠ .booting ∧ (3 : Byte).toNat = (3 : Fin 4).val ∧ (62 : Byte).toNat ≤ 63 ∧
    (fullQueue.furnaces.get 3).queue[(62 : Byte).toNat]? = some ⟨1, .zero, .empty⟩ ∧
    (fullQueue.furnaces.get 3).queue.length ≤ (63 : Byte).toNat ∧ 63 < (254 : Byte).toNat ∧ (254 : Byte) ≠ 0xFF ∧
    3 < (4 : Byte).toNat := by decide +kernel

/-- A state whose published copy holds an interval. -/
def publishedState : State := { inState .ready with published := some (.blank 7) }

theorem witness_ReadResultCopiesThePublishedTable :
    publishedState.ctrl.acc ≠ .booting ∧ 5 < (6 : Byte).toNat ∧ resultKindOfCode (1 : Byte).toNat = some .point ∧
    (resultKindShape .point).1 ≤ (128 : Byte).toNat ∧ (127 : Byte).toNat < (resultKindShape .point).1 ∧
    viewOfByte 0x04 = none ∧ viewOfByte 0x00 = some (.carrier .fuel, false) ∧
    resultViewAllowed .point (.carrier .fuel) false = false ∧ viewOfByte 0x0F = some (.totals, false) ∧
    resultViewAllowed .point .totals false = true ∧ publishedState.published = some (.blank 7) ∧
    (inState .ready).published = none ∧ (ResultTable.blank 7).points.get 127 = none ∧ (ResultTable.blank 7).lines.get 11 = none ∧
    (ResultTable.blank 7).furnaces.get 3 = none ∧ (ResultTable.blank 7).pools.get 3 = none := by decide +kernel

/-- A state in READY after one swap. -/
def frozenState : State := (inState .ready).swap .mark

theorem witness_ReadBankRecordCopiesTheBank :
    frozenState.ctrl.acc ≠ .booting ∧ 1 < (2 : Byte).toNat ∧ (1 : Byte).toNat ≤ 1 ∧ 4 < (5 : Byte).toNat ∧
    bankKindOfCode (1 : Byte).toNat = some .furnace ∧ (bankKindShape .furnace).1 ≤ (4 : Byte).toNat ∧
    (3 : Byte).toNat < (bankKindShape .furnace).1 ∧ viewOfByte 0x04 = none ∧ viewOfByte 0x8F = some (.totals, true) ∧
    bankViewAllowed .furnace .totals true = true ∧ bankKindOfCode (0 : Byte).toNat = some .header ∧
    bankViewAllowed .header .totals true = false ∧ (0 : Byte).toNat < (bankKindShape .header).1 ∧
    ((0 : Byte) = 0 ∧ frozenState.activeIdx = 1) ∧ ((1 : Byte) = 1 ∧ frozenState.frozenIdx = some 0) ∧
    (inState .ready).frozenIdx = none ∧ (inState .ready).ctrl.setWith .computing = none ∧
    ((stageState .totalled).ctrl.sets.get 0).mark = none := by decide +kernel

theorem witness_ReadStoreCopiesTheImage :
    (inState .ready).ctrl.acc ≠ .booting ∧ (inState .ready).store.busy = true ∧ protectedState.ctrl.acc ≠ .booting ∧
    protectedState.store.busy = false ∧ (127 : Byte).toNat ≤ 127 ∧ (128 : Byte) ≠ 0xFF ∧ 127 < (128 : Byte).toNat := by decide

theorem witness_EveryCopyFitsTheBuffer :
    (∃ c, linkStatusCopy openState 7 = .ok c) ∧ (∃ c, entryCopy openState.plant.staged 6 7 = .ok c) ∧
    (∃ c, pointStateCopy openState 0 127 = .ok c) ∧ (∃ c, queueCopy openState 3 255 = .ok c) ∧
    (∃ c, resultCopy publishedState 1 127 0x0F = .ok c) ∧ (∃ c, bankCopy frozenState 1 1 3 0x8F = .ok c) ∧
    ∃ c, storeCopy protectedState true 127 = .ok c :=
  ⟨⟨_, rfl⟩, ⟨_, rfl⟩, ⟨_, rfl⟩, ⟨_, rfl⟩, ⟨_, rfl⟩, ⟨_, rfl⟩, ⟨_, rfl⟩⟩

theorem witness_FurnaceCommandsFromPortM :
    (inState .ready).ctrl.acc ≠ .booting ∧ 3 < (4 : Byte).toNat ∧ (3 : Byte).toNat = (3 : Fin 4).val ∧ 2 < (3 : Byte).toNat ∧
    (2 : Byte).toNat = furnaceStateCode .heatup ∧ 63 < (64 : Byte).toNat ∧ (63 : Byte).toNat ≤ 63 ∧
    (inState .unconfigured).ctrl.acc = .unconfigured ∧ (inState .stopping).ctrl.acc = .stopping := by decide

theorem witness_LineTallyIsJudgedAndPlaced :
    openState.ctrl.acc ≠ .booting ∧ 11 < (12 : Byte).toNat ∧ (11 : Byte).toNat = (11 : Fin 12).val ∧
    (openState.plant.active.lines.get 11).enabled = false ∧ (openState.plant.active.lines.get 0).enabled = true ∧
    openState.ctrl.acc = .running ∧ openState.judgeTag (739 : BitVec 16) = .late ∧ openState.judgeTag (741 : BitVec 16) = .ahead ∧
    openState.judgeTag (740 : BitVec 16) = .taken 0 ∧ (1 : BitVec 16) ≠ 0 := by decide

theorem witness_SetLineStateReachesTheExpectedSet :
    openState.ctrl.acc ≠ .booting ∧ 11 < (12 : Byte).toNat ∧ (11 : Byte).toNat = (11 : Fin 12).val ∧ 3 < (4 : Byte).toNat ∧
    (3 : Byte).toNat = lineStateCode .off := by decide

/-- RUNNING with a commit pending, which the statements about commit-pending speak of. -/
def pendingState : State := { inState .running with plant := ⟨smallMap, smallMap, true⟩ }

theorem witness_StagedMapIsWrittenAndDiscarded :
    (List.replicate 32 (1 : Byte)).length = 32 ∧ pendingState.ctrl.acc ≠ .booting ∧ pendingState.plant.commitPending = true ∧
    openState.ctrl.acc ≠ .booting ∧ openState.plant.commitPending = false ∧ 6 < (7 : Byte).toNat ∧
    tableEntries (5 : Byte).toNat = some 4 ∧ 4 ≤ (4 : Byte).toNat ∧
    (∃ d, writeEntry openState.plant.staged 5 3 (List.replicate 32 3) = .error d) ∧
    ∃ m, writeEntry openState.plant.staged 5 3 (List.replicate 32 1) = .ok m :=
  ⟨rfl, by decide, rfl, by decide, rfl, by decide, rfl, by decide, ⟨_, rfl⟩, ⟨_, rfl⟩⟩

theorem witness_EntryImagesReadBackAsWritten :
    (List.replicate 32 (1 : Byte)).length = 32 ∧
    (∃ m, writeEntry .empty 0 0 (List.replicate 32 1) = .ok m) ∧ (∃ m, writeEntry .empty 2 127 (List.replicate 32 1) = .ok m) ∧
    ∃ m, writeEntry .empty 6 7 (List.replicate 32 1) = .ok m :=
  ⟨rfl, ⟨_, rfl⟩, ⟨_, rfl⟩, ⟨_, rfl⟩⟩

/-- Images with no offending field and with the first one at the last table entry of a kind: POINT fields 4 (MONITOR with an index
of 1), 6 (curve 8) and 7 (max increment 0), the fields before them in range. -/
theorem witness_EntryImagesReadBackAsWritten_fields :
    (tableEntries 2 = some 128 ∧ 127 < 128) ∧ (tableEntries 6 = some 8 ∧ 7 < 8) ∧
    writeEntry .empty 2 127 ([1, 3, 3, 1] ++ List.replicate 28 0) = .error ⟨2, 127, 4⟩ ∧
    writeEntry .empty 2 127 ([1, 3, 3, 0, 0, 0, 0, 0, 8] ++ List.replicate 23 0) = .error ⟨2, 127, 6⟩ ∧
    writeEntry .empty 2 127 ([1, 3, 3, 0, 0, 0, 0, 0, 15] ++ List.replicate 23 0) = .error ⟨2, 127, 7⟩ :=
  ⟨by decide, by decide, rfl, rfl, rfl⟩

/-- A load in flight. -/
def loadingState : State := { openState with store := { openState.store with op := .load } }

theorem witness_CommitIsCheckedAndTaken :
    pendingState.ctrl.acc ≠ .booting ∧ pendingState.plant.commitPending = true ∧ loadingState.plant.commitPending = false ∧
    loadingState.store.op = .load ∧ loadingState.ctrl.acc ≠ .booting ∧ openState.store.op ≠ .load ∧
    mapCheck PlantMap.empty = some ⟨3, 0, 4⟩ ∧ mapCheck smallMap = none ∧
    (withMap smallMap (inState .unconfigured)).ctrl.acc = .unconfigured ∧
    mapCheck { smallMap with points := (smallMap.points.set 127 ⟨true, .fuel, .monitor, 0, none, 1⟩) } = some ⟨2, 127, 1⟩ ∧
    mapCheck { smallMap with points := (smallMap.points.set 0 ⟨true, .fuel, .furnace 3, 0, none, 1⟩) } = some ⟨2, 0, 2⟩ ∧
    mapCheck { smallMap with lines := smallMap.lines.set 11 ⟨true, 3, 200, 1, .const 4 1⟩ } = some ⟨4, 11, 3⟩ := by
  decide +kernel

/-- A state whose apply disables furnace 0, changes the mode of link 0 and enables point 0. -/
def applyState : State := { openState with plant := { openState.plant with staged := { PlantMap.empty with
  points := PlantMap.empty.points.set 0 ⟨true, .fuel, .monitor, 0, none, 1⟩ } } }

theorem witness_ApplyChangesRunningState :
    applyState.activeBank.above = false ∧
    (applyState.plant.active.points.get 0).enabled ≠ (applyState.plant.staged.points.get 0).enabled ∧
    (applyState.plant.active.points.get 127).enabled = (applyState.plant.staged.points.get 127).enabled ∧
    (applyState.plant.active.lines.get 0).enabled ≠ (applyState.plant.staged.lines.get 0).enabled ∧
    (applyState.plant.active.lines.get 11).enabled = (applyState.plant.staged.lines.get 11).enabled ∧
    ((applyState.plant.active.furnaces.get 0).enabled = true ∧ (applyState.plant.staged.furnaces.get 0).enabled = false) ∧
    (applyState.plant.active.furnaces.get 3).enabled = false ∧
    (applyState.plant.active.links.get 0).mode ≠ (applyState.plant.staged.links.get 0).mode ∧
    (applyState.plant.active.links.get 7).mode = (applyState.plant.staged.links.get 7).mode := by decide +kernel

/-- The same apply with a full no-pull account of furnace 0, a record in its queue, and a FORM flag set on link 0 that the new map's
mask covers. -/
def overflowState : State :=
  let b := applyState.activeBank
  let s := { applyState with
    plant := { applyState.plant with staged := { applyState.plant.staged with
      global := { applyState.plant.staged.global with quarantineMask := ⟨false, true, false, false⟩ } } }
    links := applyState.links.set 0 { applyState.links.get 0 with flags := ⟨false, true, false, false⟩ } }
  (s.putBank 0 { b with furnaces := b.furnaces.set 0 { FurnaceRecord.zero with noPull := ⟨281474976710655, 0, 0, 0⟩ } }).putFurnace 0
    ⟨.melt, [⟨1, ⟨1, 0, 0, 0⟩, .empty⟩], 1, none⟩

theorem witness_ApplyChangesRunningState_overflow :
    overflowState.activeBank.above = false ∧
    281474976710655 < (overflowState.activeBank.furnaces.get 0).noPull.get .fuel +
      (queueContent (overflowState.furnaces.get 0).queue).get .fuel ∧
    (∀ c, (applyState.activeBank.furnaces.get 0).noPull.get c + (queueContent (applyState.furnaces.get 0).queue).get c = 0) ∧
    overflowState.ctrl.setWith .opened = some 0 ∧ (overflowState.links.get 0).quarantined = false ∧
    covered (overflowState.links.get 0).flags overflowState.plant.staged.global.quarantineMask = true ∧
    covered (overflowState.links.get 7).flags overflowState.plant.staged.global.quarantineMask = false := by
  refine ⟨by decide +kernel, by decide +kernel, fun c => by cases c <;> decide, by decide, by decide, by decide +kernel,
    by decide +kernel⟩

theorem witness_StartAndClosePeriod :
    (inState .ready).ctrl.acc ≠ .booting ∧ (inState .ready).ctrl.acc = .ready ∧ (inState .running).ctrl.acc ≠ .ready ∧
    (inState .running).ctrl.acc = .running := by decide

theorem witness_StopMarksTheLatestInterval :
    (inState .ready).ctrl.acc ≠ .running ∧ (inState .ready).ctrl.acc ≠ .booting ∧ openState.ctrl.acc = .running ∧
    openState.ctrl.setWith .opened = some 0 ∧
    ((withSets .waiting .computing 8 7 openState).ctrl.setWith .opened = none ∧
      (withSets .waiting .computing 8 7 openState).ctrl.setWith .waiting = some 0) ∧
    ((stageState .queued).ctrl.setWith .opened = none ∧ (stageState .queued).ctrl.setWith .waiting = none ∧
      (stageState .queued).ctrl.setWith .computing = some 0) ∧
    ((inState .running).ctrl.setWith .opened = none ∧ (inState .running).ctrl.setWith .waiting = none ∧
      (inState .running).ctrl.setWith .computing = none) := by decide

theorem witness_ImarkIsAcceptedRefusedOrIgnored :
    (inState .stopping).ctrl.acc ≠ .running ∧ (stageState .queued).ctrl.acc = .running ∧
    (stageState .queued).ctrl.setWith .computing ≠ none ∧ openState.ctrl.acc = .running ∧
    openState.ctrl.setWith .computing = none ∧ openState.ctrl.setWith .opened = some 0 ∧ openState.ctrl.setWith .free = some 1 ∧
    (inState .running).ctrl.setWith .opened = none ∧ (inState .running).ctrl.setWith .free = some 0 := by decide

theorem witness_TagsAreJudgedByTheirDistance :
    openState.ctrl.setWith .opened = some 0 ∧ (inState .running).ctrl.setWith .opened = none ∧
    ((740 % 65536 + 65536 - (740 : BitVec 16).toNat) % 65536 = 0) ∧
    ((740 % 65536 + 65536 - (739 : BitVec 16).toNat) % 65536 = 1) ∧
    ((740 % 65536 + 65536 - (33509 : BitVec 16).toNat) % 65536 = 32767) ∧
    ((740 % 65536 + 65536 - (33508 : BitVec 16).toNat) % 65536 = 32768) ∧
    (inState .ready).ctrl.acc ≠ .running ∧ (inState .ready).ctrl.acc ≠ .stopping ∧ openState.ctrl.acc = .running ∧
    openState.judgeTag 740 = .taken 0 ∧ openState.judgeTag 739 = .late ∧ openState.judgeTag 741 = .ahead ∧
    ((inState .stopping).ctrl.acc = .stopping ∧ (inState .stopping).judgeTag 0 = .late) := by decide

/-- STOPPING with a computation in set 0, which the slot sets' law allows. -/
def stoppingState : State := (stageState .queued).setAcc .stopping

theorem witness_SlotLaw_stopping : SlotLaw stoppingState ∧ stoppingState.ctrl.acc = .stopping := by
  refine ⟨?_, rfl⟩
  constructor
  · decide
  · refine ⟨fun h => absurd h (by decide), fun h => by simp [stoppingState, stageState, State.setAcc] at h⟩
  all_goals decide

theorem witness_OpenWindowClosesWhenAllAreIn :
    openState.ctrl.setWith .opened = some 0 ∧
    ((openState.plant.active.links.get 0).mode ≠ .off ∧ (openState.links.get 0).quarantined = false ∧
      (openState.ctrl.sets.get 0).links.get 0 = none) ∧
    (withSets .opened .computing 8 7 (inState .running)).ctrl.setWith .opened = some 0 ∧
    (withSets .opened .computing 8 7 (inState .running)).ctrl.setWith .computing ≠ none ∧
    (∀ l, ((inState .running).plant.active.links.get l).mode = .off) ∧
    (∀ l, ((inState .running).plant.active.lines.get l).enabled = false) ∧
    (withSets .opened .free 8 7 (inState .running)).ctrl.setWith .computing = none ∧
    pendingState.plant.commitPending = true ∧ pendingState.plant.active.global.commitAtPeriod = false := by decide

/-- An open window whose close finds a commit due: point 0 and line 0 change, furnace 0 retires and link 0 changes its mode, with the
engine idle, and with it busy; and a window that is not all in, which a deadline or STOP closes. -/
def dueState : State := { applyState with plant := { applyState.plant with commitPending := true } }

theorem witness_OpenWindowClosesWhenAllAreIn_due :
    (dueState.ctrl.sets.get 0).status = .opened ∧ dueState.ctrl.setWith .computing = none ∧
    dueState.plant.commitPending = true ∧ dueState.plant.active.global.commitAtPeriod = false ∧
    dueState.activeBank.count = 0 ∧ dueState.activeBank.above = false ∧
    (dueState.plant.active.points.get 0).enabled ≠ (dueState.plant.staged.points.get 0).enabled ∧
    (dueState.plant.active.points.get 127).enabled = (dueState.plant.staged.points.get 127).enabled ∧
    (dueState.plant.active.lines.get 0).enabled ≠ (dueState.plant.staged.lines.get 0).enabled ∧
    (dueState.plant.active.lines.get 11).enabled = (dueState.plant.staged.lines.get 11).enabled ∧
    ((dueState.plant.active.furnaces.get 0).enabled = true ∧ (dueState.plant.staged.furnaces.get 0).enabled = false) ∧
    (dueState.plant.active.furnaces.get 3).enabled = false ∧
    (dueState.plant.active.links.get 0).mode ≠ (dueState.plant.staged.links.get 0).mode ∧
    (dueState.plant.active.links.get 7).mode = (dueState.plant.staged.links.get 7).mode ∧
    (openState.ctrl.sets.get 0).status = .opened ∧ openState.plant.commitPending = false ∧
    ((withSets .computing .opened 7 8 dueState).ctrl.sets.get 1).status = .opened ∧
    (withSets .computing .opened 7 8 dueState).ctrl.setWith .computing ≠ none := by decide +kernel

/-- A deadline close of a window that is not all in: its computation starts, the due commit applied; busy, it waits. -/
theorem test_closeWindow :
    (dueState.closeWindow false 0).plant.active = dueState.plant.staged ∧
    (dueState.closeWindow false 0).ports.e.has .committed = true ∧
    ((dueState.closeWindow false 0).ctrl.sets.get 0).status = .computing ∧
    (((withSets .computing .opened 7 8 dueState).closeWindow false 1).ctrl.sets.get 1).status = .waiting := by decide +kernel

theorem witness_LinkWordReachesALiveReceiver :
    (openState.plant.active.links.get 7).mode ≠ .live ∧ (openState.plant.active.links.get 0).mode = .live ∧
    (receiveWord ⟨.live, 9, 4⟩ (goodWord 740 false true) ⟨.tag ⟨.heartbeat, 0, 0, 9⟩, false, 0, false, 0, 0⟩).frame =
      some ⟨.heartbeat, 740, []⟩ ∧
    (receiveWord ⟨.live, 9, 4⟩ (goodWord 740 false true) .reset).frame = none := by decide +kernel

theorem witness_InjectWordsFeedsATestLink :
    openState.ctrl.acc ≠ .booting ∧ 1 ≤ (List.replicate 1 ((0, 0, 0) : Byte × Byte × Byte)).length ∧
    (List.replicate 32 ((0, 0, 0) : Byte × Byte × Byte)).length ≤ 32 ∧ 7 < (8 : Byte).toNat ∧
    (0 : Byte).toNat = (0 : Fin 8).val ∧ (openState.plant.active.links.get 0).mode ≠ .test ∧
    (1 : Byte).toNat = (1 : Fin 8).val ∧ (openState.plant.active.links.get 1).mode = .test ∧
    (inState .running).ctrl.setWith .opened = none ∧ (inState .running).ctrl.setWith .waiting = none := by decide

/-- RUNNING under the empty map with a commit pending and a window open, which every expected source has delivered to. -/
def heldState : State := { withSets .opened .free 8 0 (inState .running) with plant := ⟨.empty, .empty, true⟩ }

/-- The run clauses of INJECT WORDS: a word after which a closure is held back, one after which none is, and the ends of a run with a
set WAITING and the engine idle, and with no set WAITING. -/
theorem witness_InjectWordsFeedsATestLink_run :
    let x := heldState.wordArrives 0 (goodWord 0 false false)
    (x.ctrl.setWith .opened = some 0 ∧ (∀ l, (x.plant.active.links.get l).mode = .off) ∧
      (∀ l, (x.plant.active.lines.get l).enabled = false) ∧ x.ctrl.setWith .computing = none ∧ x.plant.commitPending = true ∧
      x.plant.active.global.commitAtPeriod = false) ∧
    (openState.wordArrives 1 (goodWord 0 false false)).plant.commitPending = false ∧
    ((withSets .waiting .free 8 0 heldState).ctrl.setWith .waiting = some 0 ∧
      (withSets .waiting .free 8 0 heldState).ctrl.setWith .computing = none) ∧
    openState.ctrl.setWith .waiting = none := by decide +kernel

/-- Single words for each clause: a bad word, a header that suits and one that does not (count 5 on a link of 4), a plain, an end
and an abort word, and the last slot of a frame of 4 (three readings before it) and the one before. -/
theorem witness_AWholeFrameIsTakenExactly_words :
    wordGood ⟨0, true, false, false, true⟩ = false ∧ wordGood (goodWord 0x5C89 true false) = true ∧
    ((0x5C89 : BitVec 16).toNat / 16384 = 1 ∧ (0x5C89 : BitVec 16).toNat / 32 % 32 = 4 ∧ (0x5C89 : BitVec 16).toNat % 32 = 9) ∧
    ((0x5CA9 : BitVec 16).toNat / 32 % 32 = 5) ∧
    ((0x9C09 : BitVec 16).toNat / 16384 = 2 ∧ (0x9C09 : BitVec 16).toNat / 32 % 32 = 0 ∧ (0x9C09 : BitVec 16).toNat % 32 = 9) ∧
    wordGood (goodWord 0 false false) = true ∧ wordGood (goodWord 0 false true) = true ∧ wordGood (goodWord 0 true true) = true ∧
    (List.replicate 3 (⟨0, false, false⟩ : Reading)).length + 1 = 4 ∧
    (List.replicate 2 (⟨0, false, false⟩ : Reading)).length + 1 < 4 := by decide

theorem witness_AWholeFrameIsTakenExactly :
    Receiver.reset.decoder = .hunt ∧ (9 : Nat) ≤ 31 ∧
    (FrameKind.report ≠ .heartbeat ∧ 1 ≤ (List.replicate 16 (⟨0, true, true⟩ : Reading)).length ∧
      (List.replicate 16 (⟨0, true, true⟩ : Reading)).length ≤ 16) ∧
    (⟨.report, 15, 16, 31⟩ : Header).pointCount = (List.replicate 16 (⟨0, true, true⟩ : Reading)).length ∧
    (⟨.heartbeat, 15, 0, 31⟩ : Header).pointCount = ([] : List Reading).length := by decide

theorem witness_ErrorEventCountsAndFlags :
    (openState.links.get 0).quarantined = false ∧
    covered ((openState.links.get 0).flags.put .form true) openState.plant.active.global.quarantineMask = true ∧
    openState.ctrl.setWith .opened = some 0 ∧ (inState .running).ctrl.setWith .opened = none := by decide

theorem witness_ClearLinkCountersFreesTheLink :
    openState.ctrl.acc ≠ .booting ∧ (7 : Byte).toNat = (7 : Fin 8).val ∧ 7 < (8 : Byte).toNat ∧ (8 : Byte) ≠ 0xFF ∧
    7 < (254 : Byte).toNat ∧ (254 : Byte) ≠ 0xFF := by decide

theorem witness_StoreCommandsAreJudgedInOrder :
    (inState .ready).ctrl.acc ≠ .booting ∧ (inState .ready).store.busy = true ∧ protectedState.store.busy = false ∧
    protectedState.store.lock = true ∧ protectedState.store.freeze = true ∧ protectedState.plant.commitPending = false ∧
    { protectedState.store with lock := false }.lock = false ∧ pendingState.plant.commitPending = true ∧
    3 < (4 : Byte).toNat ∧ (3 : Byte).toNat ≤ 3 := by decide

/-- A save of the empty map with `k` bytes written. -/
def savingState (k : Nat) : State :=
  { protectedState with store := { protectedState.store with busy := true, op := .save .empty (.const 4 0) k } }

theorem witness_StoreOperationsRunToCompletion :
    (savingState 4095).store.op = .save .empty (.const 4 0) 4095 ∧ 4095 < 4096 ∧
    (savingState 4096).store.op = .save .empty (.const 4 0) 4096 ∧ 4096 ≤ 4096 ∧ loadingState.store.op = .load ∧
    State.reset.ctrl.acc = .booting ∧ judgeImage State.reset.store.image = .bad 1 := by decide +kernel

/-- The cells that hold a list of bytes from address `a` on. -/
def cellsFrom (a : Nat) : List Byte → List Host.Cell
  | [] => []
  | b :: bs => if b = Config.erasedByte then cellsFrom (a + 1) bs else (a, b) :: cellsFrom (a + 1) bs

theorem read_cellsFrom (bs : List Byte) (a k : Nat) :
    Image.read (cellsFrom a bs) (a + k) = bs.getD k Config.erasedByte ∧
    ∀ j, j < a → Image.read (cellsFrom a bs) j = Config.erasedByte := by
  induction bs generalizing a k with
  | nil => simp [cellsFrom, Image.read]
  | cons b bs ih =>
    by_cases hb : b = Config.erasedByte
    · simp only [cellsFrom, hb, if_true]
      refine ⟨?_, fun j hj => (ih (a + 1) 0).2 j (by omega)⟩
      cases k with
      | zero => simpa using (ih (a + 1) 0).2 a (by omega)
      | succ k => simpa [Nat.add_assoc, Nat.add_comm 1] using (ih (a + 1) k).1
    · simp only [cellsFrom, hb, if_false, Image.read]
      refine ⟨?_, fun j hj => by rw [if_neg (by omega)]; exact (ih (a + 1) 0).2 j (by omega)⟩
      cases k with
      | zero => simp
      | succ k =>
        rw [if_neg (by omega)]
        simpa [Nat.add_assoc, Nat.add_comm 1] using (ih (a + 1) k).1

theorem bytes_cellsFrom (bs : List Byte) (a n : Nat) (h : a + n ≤ bs.length) :
    Image.bytes (cellsFrom 0 bs) a n = (bs.drop a).take n := by
  apply List.ext_getElem
  · simp [Image.bytes]
    omega
  · intro k h1 _
    have := (read_cellsFrom bs 0 (a + k)).1
    simp only [Nat.zero_add] at this
    simp [Image.bytes] at h1
    simp [Image.bytes, this, List.getElem?_eq_getElem (show a + k < bs.length by omega)]

/-- An image of a whole body with its header is judged by that body. -/
theorem judge_cellsFrom (body : List Byte) (h : body.length = 2012) :
    judgeImage (cellsFrom 0 (headerBytes body ++ body)) = judgeBody body := by
  have hl : (headerBytes body).length = 12 := rfl
  have e : ∀ a n, a + n ≤ 2024 → Image.bytes (cellsFrom 0 (headerBytes body ++ body)) a n =
      ((headerBytes body ++ body).drop a).take n :=
    fun a n hn => bytes_cellsFrom _ a n (by rw [List.length_append, hl, h]; omega)
  have hb : ((headerBytes body ++ body).drop 12).take 2012 = body := by
    rw [← hl, List.drop_left, ← h, List.take_length]
  have hc : ((headerBytes body ++ body).drop 8).take 4 = toBE 4 (checkWord body) := rfl
  have hw : beNat (toBE 4 (checkWord body)) = checkWord body := by
    have : checkWord body < 4294967296 := by
      unfold checkWord
      split <;> omega
    simp [beNat, toBE]
    omega
  unfold judgeImage bodyLength
  rw [e 12 2012 (by omega), hb, e 0 2 (by omega), e 2 2 (by omega), e 4 4 (by omega), e 8 4 (by omega), hc, hw, if_neg,
    if_neg, if_neg, if_neg]
  · simp
  · simp [headerBytes, toBE, beNat, bodyLength]
  · simp [headerBytes, toBE, beNat, imageVersion]
  · simp [headerBytes, toBE, beNat, imageTag]

/-- Images that fail at steps 1 to 6 (R178): a new part's, then with the tag, the version, the length and the checksum of erased
bytes made right one after another, then a whole image of the empty map, which COMMIT's check 4 fails. -/
theorem witness_StoreOperationsRunToCompletion_steps :
    judgeImage [] = .bad 1 ∧ judgeImage [(0, 0x5E), (1, 0x12)] = .bad 2 ∧
    judgeImage [(0, 0x5E), (1, 0x12), (2, 0), (3, 1)] = .bad 3 ∧
    judgeImage [(0, 0x5E), (1, 0x12), (2, 0), (3, 1), (4, 0), (5, 0), (6, 7), (7, 0xDC)] = .bad 4 ∧
    judgeImage [(0, 0x5E), (1, 0x12), (2, 0), (3, 1), (4, 0), (5, 0), (6, 7), (7, 0xDC), (10, 0xFE), (11, 0x09)] = .bad 5 := by
  decide +kernel

theorem witness_StoreOperationsRunToCompletion_step_6 :
    let body := bodyBytes .empty (.const 4 63)
    judgeImage (cellsFrom 0 (headerBytes body ++ body)) = .bad 6 := by
  have h := judge_cellsFrom (bodyBytes .empty (.const 4 63)) (by decide +kernel)
  exact h.trans (by decide +kernel)

theorem witness_SavedImageIsJudgedGood :
    mapCheck smallMap = none ∧ (∀ f, (Tab.const 4 63).get f ≤ 63) ∧
    { protectedState.store with op := .save smallMap (.const 4 63) 0 }.op = .save smallMap (.const 4 63) 0 := by decide +kernel

theorem witness_SavedImageIsJudgedGood_range : smallMap.inRange where
  holdLimit := by decide
  threshold := by decide
  plantMin := by decide
  links := by decide
  points := by decide +kernel
  furnaces := by decide
  lines := by decide
  curves := by decide +kernel

theorem witness_EventsNotDueChangeNothing :
    openState.ctrl.setWith .computing = none ∧ (stageState .queued).engine.phase ≠ .started ∧ openState.ctrl.acc ≠ .booting ∧
    (stageState .poolSplit).engine.phase ≠ .totalled ∧ (stageState .poolSplit).engine.phase ≠ .banked ∧
    openState.store.op ≠ .load ∧ openState.store.op = .none ∧ (savingState 4096).store.op = .save .empty (.const 4 0) 4096 ∧
    (savingState 4095).store.op = .save .empty (.const 4 0) 4095 := by decide +kernel

/-- The hypotheses of the statements about a stage: a set COMPUTING, the stage before it finished, and a working copy. -/
theorem witness_stages (p : Phase) : (stageState p).ctrl.setWith .computing = some 0 ∧ (stageState p).engine.phase = p ∧
    (stageState p).working = some (.blank 7) := by
  cases p <;> exact ⟨by decide, rfl, rfl⟩

theorem witness_ReconciliationStageTakesEachSourceOnce :
    ((stageState .started).plant.active.lines.get 0).enabled = true ∧
    ((stageState .started).plant.active.lines.get 11).enabled = false ∧
    ((stageState .started).plant.active.points.get 127).enabled = false ∧
    ((withMap applyState.plant.staged (stageState .started)).plant.active.points.get 0).enabled = true := by decide +kernel

/-- Each case of the machine at a boundary of its window (max increment 1,000, run count 2, hold limit 3). -/
theorem witness_ReconciliationMachineFollowsItsTable :
    (500400 < 16777216) ∧ ((501400 + 16777216 - 500400) % 16777216 ≤ 1000) ∧ (1000 < (501401 + 16777216 - 500400) % 16777216) ∧
    ((503400 + 16777216 - 500400) % 16777216 ≤ 1000 * (2 + 1)) ∧ (800 + 0 - 3000 ≤ 16777215) ∧
    (1000 * (2 + 1) < (503401 + 16777216 - 500400) % 16777216) ∧ (16777215 < 16777000 + 800 - 400) ∧ (2 < 3) ∧ (3 ≤ 3) ∧
    LineState.stopped ≠ .off := by decide

/-- 5.10 from interval 101 to 104 as a ledger. -/
theorem witness_BookedCountsFollowTheAccountLaw :
    let run : List (Nat × Nat × Option Nat) := [(3, 1000, some 500400), (3, 1000, none), (3, 1000, none), (3, 1000, some 501000)]
    0 < 16777216 ∧ 500000 < 16777216 ∧ (∀ x ∈ run, ∀ v ∈ x.2.2, v < 16777216) ∧
    run.foldl (fun x o => ledgerStep 16777216 o.1 o.2.1 o.2.2 x) ⟨.tracking, 0, ⟨500000, 0, 0, 0, 0⟩, 0, 0⟩ =
      ⟨.tracking, 0, ⟨501000, 0, 200, 200, 0⟩, 1200, 1000⟩ := by decide +kernel

theorem witness_ConversionStageRoutesEachKilojoule :
    (stageState .reconciled).working = some (.blank 7) ∧ ((stageState .reconciled).plant.active.points.get 0).enabled = false ∧
    ((stageState .reconciled).plant.active.lines.get 0).enabled = true ∧
    ((stageState .reconciled).plant.active.lines.get 11).enabled = false ∧
    ((withMap applyState.plant.staged (stageState .reconciled)).plant.active.points.get 0).enabled = true := by decide +kernel

/-- Qualities on the way in: a point of MONITOR that is ESTIMATED and a line that is MANUAL. -/
theorem witness_ConversionStageRoutesEachKilojoule_quality :
    let q : Quality := ⟨true, false, false, false, false⟩
    let s := withMap applyState.plant.staged (stageState .reconciled)
    let t := { s with sources := ⟨s.sources.points.modify 0 fun r => { r with head := { r.head with quality := q } },
      s.sources.lines.modify 0 fun r => { r with head := { r.head with quality := ⟨false, false, false, true, false⟩ } }⟩ }
    (t.plant.active.points.get 0).enabled = true ∧ (t.plant.active.points.get 0).target = .monitor ∧
    (t.sources.points.get 0).head.quality.estimated = true ∧
    ((stageState .reconciled).plant.active.lines.get 0).enabled = true ∧ (t.sources.lines.get 0).head.quality.manual = true := by
  decide +kernel

theorem witness_ConversionLosesNoEnergy :
    8191 * 16 / (8191 + 1) ≤ 15 ∧ 15 < 8192 * 16 / (8191 + 1) ∧ 8191 ≤ 8191 ∧ 8191 < 8192 ∧ (0 = 0) ∧ 1 ≠ 0 ∧
    16777215 < 16777216 ∧ (∀ k s, ((PlantMap.empty.curves.get k).gains.get s) ≤ 65535) ∧ 65535 < 65536 := by decide +kernel

theorem witness_QueueStagePushesAndReleases :
    ((stageState .converted).plant.active.furnaces.get 0).enabled = true ∧
    ((stageState .converted).plant.active.furnaces.get 3).enabled = false ∧
    (stageState .converted).engine.furnaceStates.get 0 = .melt ∧
    ({ (stageState .converted).engine with furnaceStates := .const 4 .hold }).furnaceStates.get 0 ≠ .melt := by decide +kernel

theorem witness_SplitSharesSumToTheAmount :
    let w : Tab 12 Nat := ⟨[960000, 720000, 320000, 0, 0, 0, 0, 0, 0, 0, 0, 0], rfl⟩
    (∃ l, w.get l ≠ 0) ∧ w.get 11 = 0 ∧ w.get 2 < w.get 1 := by decide

/-- A working copy with a furnace entry, a line entry and a pool entry, and one with none of them. -/
def entries : ResultTable := { ResultTable.blank 7 with
  lines := (ResultTable.blank 7).lines.set 0
    (some ⟨.running, 400, 368, 2400, 960000, 883200, .zero, .zero, .zero, .zero, 0, 0, .empty, 50⟩)
  furnaces := (ResultTable.blank 7).furnaces.set 0
    (some ⟨.melt, 3, 3, 0, ⟨1000003, 0, 0, 0⟩, .zero, .zero, .zero, .zero, .zero, 0, 0, .empty, 100⟩)
  pools := (ResultTable.blank 7).pools.set 0 (some ⟨.gross, .zero, .zero, .zero, .empty⟩) }

theorem witness_entries : entries.lines.get 0 ≠ none ∧ entries.lines.get 11 = none ∧ entries.furnaces.get 0 ≠ none ∧
    entries.furnaces.get 3 = none ∧ entries.pools.get 0 ≠ none ∧
    entries.furnaces.get ((stageState .queued).plant.active.lines.get 0).furnace ≠ none ∧
    ({ stageState .queued with working := some entries }).working = some entries := by decide +kernel

/-- Present entries of every kind, as READ RESULT shows them. -/
theorem witness_ReadResultCopiesThePublishedTable_present :
    let t : ResultTable := { entries with
      points := entries.points.set 127 (some ⟨3200, 6, 33937, 5968, .fuel, .furnace 0, .empty⟩) }
    t.points.get 127 ≠ none ∧ t.lines.get 0 ≠ none ∧ t.furnaces.get 0 ≠ none ∧ t.pools.get 0 ≠ none := by decide +kernel

/-- Amounts that clamp a line's, a furnace's and the plant's figure, and one that does not (R134). -/
theorem witness_TotalsStageCompletesTheEntries :
    let clamps (e m k : Nat) : Bool := decide (k * 10000 ≤ m ∧ 16777214 < (e * 100000 + m / 2) / m)
    clamps 200000000 10000 1 = true ∧ clamps 1677721 10000 1 = false ∧ clamps 200000000 9999 1 = false := by decide

theorem witness_PoolSplitSharesTheMetered :
    ((stageState .furnaceSplit).plant.active.pools.get 0).enabled = false ∧
    ({ smallMap with pools := .const 4 ⟨true, .fixed⟩ }.pools.get 3).enabled = true := by decide +kernel

theorem witness_SpecificEnergyRoundsToTheNearest :
    1 ≤ 50 ∧ 499999 < 50 * 10000 ∧ 50 * 10000 ≤ 500000 := by decide

/-- COMPLETION's three ends: a WAITING set, STOPPING with no window, and neither; and a marked completion before and after a read
that comes before its swap. -/
theorem witness_CompletionPublishesAndBanks :
    let free (s : State) : State := s.putSet 0 .free
    ((free (withSets .computing .waiting 7 8 (stageState .totalled))).ctrl.setWith .waiting = some 1) ∧
    ((free (stageState .totalled)).ctrl.setWith .waiting = none ∧ (free (stageState .totalled)).ctrl.setWith .opened = none) ∧
    (withSets .computing .waiting 7 8 (stageState .totalled)).ctrl.setWith .computing = some 0 ∧
    ((stageState .totalled).setAcc .stopping).ctrl.acc = .stopping ∧ (stageState .totalled).ctrl.acc ≠ .stopping ∧
    ((markedState .totalled).ctrl.sets.get 0).mark ≠ none ∧ (markedState .totalled).ctrl.setWith .computing = some 0 ∧
    (markedState .totalled).engine.phase = .totalled ∧ (markedState .banked).engine.phase = .banked ∧
    (markedState .banked).ctrl.setWith .computing = some 0 := by decide

theorem witness_AddingAnIntervalGrowsTheBank :
    (Bank.cleared .active 1).above = false ∧ (Bank.cleared .active 1).count = 0 ∧ entries.furnaces.get 0 ≠ none ∧
    entries.furnaces.get 3 = none ∧ entries.lines.get 0 ≠ none ∧ entries.lines.get 11 = none ∧ entries.pools.get 0 ≠ none ∧
    entries.pools.get 3 = none := by
  decide +kernel

/-- A sum at the limit and one above it (R148). -/
theorem witness_AddingAnIntervalGrowsTheBank_flag :
    let full (k : Nat) : Bank := { Bank.cleared .active 1 with
      furnaces := (Bank.cleared .active 1).furnaces.set 0 { FurnaceRecord.zero with pull := k } }
    let t : ResultTable := { entries with
      furnaces := entries.furnaces.set 0 ((entries.furnaces.get 0).map fun x => { x with pull := 1 }) }
    (full 281474976710655).above = false ∧ (full 281474976710654).addSaturates t false = false ∧
    (full 281474976710655).addSaturates t false = true := by decide +kernel

theorem witness_IntervalEnergyBalances :
    let s := stageState .reconciled
    s.ctrl.setWith .computing = some 0 ∧ s.engine.phase = .reconciled ∧ s.engine.acc = .zero ∧ s.working ≠ none ∧
    mapCheck s.plant.active = none ∧
    (((((s.convertStage 0).queueStage 0).furnaceSplitStage 0).poolSplitStage 0).totalsStage 0).engine.saturated = false := by
  decide +kernel

/-- A state that meets the laws and has a command waiting. -/
def lawState : State := { inState .unconfigured with pending := [.pinReset] }

theorem witness_EveryStepKeepsTheBanks :
    (∀ i, (lawState.banks.get i).above = false) ∧ (lawState.banks.get 0).state = .active ∧ (lawState.banks.get 0).cause = none ∧
    lawState.banks.get (other 0) = .cleared .empty 0 ∧ ∃ t, step lawState = .next t :=
  ⟨by decide +kernel, rfl, rfl, by decide +kernel, ⟨_, rfl⟩⟩

theorem witness_EveryStepKeepsTheSlotSets : SlotLaw lawState := by
  constructor
  · decide
  · decide
  all_goals decide

theorem witness_EveryStepKeepsQuarantine :
    (∀ l, (lawState.links.get l).quarantined =
      covered (lawState.links.get l).flags lawState.plant.active.global.quarantineMask) ∧ lawState.ctrl.acc ≠ .booting := by
  decide +kernel

theorem witness_EveryStepKeepsTheBounds : lawState.memoryLaw ∧ lawState.portLaw ∧ lawState.queueLaw := by
  refine ⟨⟨⟨List.Pairwise.nil, fun _ h => nomatch h⟩, by decide +kernel⟩, ?_, ?_⟩
  · intro p
    cases p <;> decide
  · intro f
    simp [lawState, inState, State.setAcc, State.reset, Furnace.reset]

theorem witness_EveryStepKeepsTheBounds_ranges :
    (∀ p, (lawState.sources.points.get p).head.run = 0) ∧ (∀ l, (lawState.sources.lines.get l).head.run = 0) ∧
    lawState.plant.staged = .empty ∧ lawState.plant.active = .empty := by decide +kernel

theorem witness_EveryStepKeepsTheBounds_empty_map : PlantMap.empty.inRange where
  holdLimit := by decide
  threshold := by decide
  plantMin := by decide
  links := by decide
  points := by decide +kernel
  furnaces := by decide
  lines := by decide
  curves := by decide +kernel

theorem witness_EveryStepKeepsTheFurnaceBalance : lawState.balanceLaw := by
  refine ⟨fun i h => ?_, fun _ f c => ⟨fun _ => ?_, fun h => ?_⟩⟩
  · exact absurd h (by revert i; decide)
  · cases c <;> revert f <;> decide
  · exact absurd h (by decide)

end Sys2Proof.Tests
end

section
/-! PROOFS. One error event at a link (R38 to R40, R42): what it makes of the link, of the three ports and of the
collection controller, and the statement assembled from these. -/

namespace Sys2Proof.Machine

/-! ## The dropped delivery and quarantine (R38, R42) -/

/-- With a window open, the link's delivery is dropped from that window alone. -/
theorem State.dropDelivery_ctrl_of_open {s : State} {i : Fin 2} (h : s.ctrl.setWith .opened = some i) (l : Fin 8) :
    (s.dropDelivery l).ctrl =
      { s.ctrl with
        sets := s.ctrl.sets.set i { s.ctrl.sets.get i with links := (s.ctrl.sets.get i).links.set l none } } := by
  simp only [State.dropDelivery, h]
  rfl

/-- What a dropped delivery makes of the controller turns on the controller alone. -/
theorem State.dropDelivery_ctrl_congr {s t : State} (h : s.ctrl = t.ctrl) (l : Fin 8) :
    (s.dropDelivery l).ctrl = (t.dropDelivery l).ctrl := by
  cases ho : t.ctrl.setWith .opened with
  | none => rw [(s.dropDelivery_drops l).eq_of_no_open (h ▸ ho), (t.dropDelivery_drops l).eq_of_no_open ho, h]
  | some i => rw [State.dropDelivery_ctrl_of_open (h ▸ ho), State.dropDelivery_ctrl_of_open ho, h]

/-- A link derived anew drops its delivery exactly where it enters quarantine. -/
theorem State.rederive_ctrl (s : State) (l : Fin 8) : (s.rederive l).ctrl =
    if (s.links.get l).quarantined = false ∧
        covered (s.links.get l).flags s.plant.active.global.quarantineMask = true then
      (s.dropDelivery l).ctrl
    else s.ctrl := by
  simp only [State.rederive, Bool.and_eq_true, Bool.not_eq_true', and_comm (b := _ = false)]
  split
  · exact State.dropDelivery_ctrl_congr (State.putLink_ctrl ..) l
  · rfl

/-! ## One error event (R39, R40) -/

/-- Whether an event of kind `e` changes its counter at link `l` into the threshold. -/
def State.meetsThreshold (s : State) (l : Fin 8) (e : ErrorKind) : Bool :=
  let old := (s.links.get l).counts.get e
  let new := raiseCounter (s.plant.active.global.wrapMask.get e) old
  decide (new ≠ old ∧ new.toNat = s.plant.active.global.threshold)

/-- The flags of link `l` after an event of kind `e`. -/
def State.flagsAfter (s : State) (l : Fin 8) (e : ErrorKind) : PerKind Bool :=
  (s.links.get l).flags.put e ((s.links.get l).flags.get e || s.meetsThreshold l e)

/-- The model's own test of the threshold. -/
theorem State.meetsThreshold_eq (s : State) (l : Fin 8) (e : ErrorKind) :
    let old := (s.links.get l).counts.get e
    let new := raiseCounter (s.plant.active.global.wrapMask.get e) old
    (new != old && new.toNat == s.plant.active.global.threshold) = s.meetsThreshold l e := by
  rw [Bool.eq_iff_iff]
  simp [State.meetsThreshold]

/-- An event in three changes: the link's counter and flag, the notice, and the link derived anew. -/
theorem State.errorEvent_eq (s : State) (l : Fin 8) (e : ErrorKind) :
    let k := s.links.get l
    s.errorEvent l e =
      ((s.putLink l { k with
          counts := k.counts.put e (raiseCounter (s.plant.active.global.wrapMask.get e) (k.counts.get e))
          flags := s.flagsAfter l e }).notifyIf
        (s.meetsThreshold l e && !k.flags.get e) .linkThreshold).rederive l := by
  simp only [State.errorEvent, State.flagsAfter, State.meetsThreshold_eq]

/-- The link after an event: its receiver is as before. -/
theorem State.errorEvent_links_get_self (s : State) (l : Fin 8) (e : ErrorKind) :
    let k := s.links.get l
    (s.errorEvent l e).links.get l = { k with
      counts := k.counts.put e (raiseCounter (s.plant.active.global.wrapMask.get e) (k.counts.get e))
      flags := s.flagsAfter l e
      quarantined := covered (s.flagsAfter l e) s.plant.active.global.quarantineMask } := by
  simp only [State.errorEvent_links_get, State.meetsThreshold_eq, State.flagsAfter, if_true]

/-- Every other link is as before. -/
theorem State.errorEvent_links_get_ne (s : State) {l m : Fin 8} (h : m ≠ l) (e : ErrorKind) :
    (s.errorEvent l e).links.get m = s.links.get m := by
  rw [State.errorEvent_links_get, if_neg h.symm]

/-- LINK_THRESHOLD is set in every port exactly where the flag was clear and the event sets it. -/
theorem State.errorEvent_ports_get (s : State) (l : Fin 8) (e : ErrorKind) (p : Port) :
    (s.errorEvent l e).ports.get p =
      if s.meetsThreshold l e = true ∧ (s.links.get l).flags.get e = false then
        (s.ports.get p).notify .linkThreshold
      else s.ports.get p := by
  simp only [State.errorEvent_eq, State.rederive_ports, State.notifyIf_ports, State.putLink_ports, Bool.and_eq_true,
    Bool.not_eq_true']
  split
  · exact Ports.notify_get ..
  · rfl

/-- The controller changes only by the delivery of a link that enters quarantine. -/
theorem State.errorEvent_ctrl (s : State) (l : Fin 8) (e : ErrorKind) : (s.errorEvent l e).ctrl =
    if (s.links.get l).quarantined = false ∧
        covered (s.flagsAfter l e) s.plant.active.global.quarantineMask = true then
      (s.dropDelivery l).ctrl
    else s.ctrl := by
  rw [State.errorEvent_eq, State.rederive_ctrl, State.dropDelivery_ctrl_congr (t := s) (by simp)]
  simp

/-- Settles O33: the link, the ports and the controller after one event, each by its own rule. -/
theorem errorEventCountsAndFlags : Obligations.ErrorEventCountsAndFlags := by
  intro l e s g k old new met flags t
  have hlink := s.errorEvent_links_get_self l e
  have hctrl := s.errorEvent_ctrl l e
  refine ⟨congrArg Link.counts hlink, congrArg Link.flags hlink, (congrArg Link.rx hlink :),
    congrArg Link.quarantined hlink, fun m hm => s.errorEvent_links_get_ne hm e, s.errorEvent_ports_get l e,
    ?entersOpen, ?otherwise, s.errorEvent_plant l e, s.errorEvent_sources l e, s.errorEvent_banks l e,
    s.errorEvent_engine l e⟩
  case entersOpen =>
    intro i hq hcov hopen
    exact hctrl.trans ((if_pos ⟨hq, hcov⟩).trans (State.dropDelivery_ctrl_of_open hopen l))
  case otherwise =>
    rintro (hstays | hclosed)
    · exact hctrl.trans (if_neg hstays)
    · exact (s.errorEvent_drops l e).eq_of_no_open hclosed

end Sys2Proof.Machine
end

section
/-! PROOFS. Judging a tag (R59) and a delivery at the collection controller (R60): the distance of a tag, the judgement it
decides, what the judgement makes of a delivery, and the statement assembled from these. -/

namespace Sys2Proof.Machine

/-! ## The distance of a tag (R59) -/

/-- How far a tag lies behind the low 16 bits of an interval number, modulo 65,536. -/
def tagDistance (n : BitVec 32) (tag : BitVec 16) : Nat := (n.toNat % 65536 + 65536 - tag.toNat) % 65536

/-- The model's subtraction of words is that distance. -/
theorem tagOf_sub_toNat (n : BitVec 32) (tag : BitVec 16) : (tagOf n - tag).toNat = tagDistance n tag := by
  have htag : tag.toNat < 65536 := tag.isLt
  simp only [tagOf, tagDistance, BitVec.toNat_sub, BitVec.toNat_setWidth]
  omega

/-! ## The judgement (R59) -/

/-- With a window open, the distance from its interval number decides. -/
theorem State.judgeTag_of_open {s : State} {i : Fin 2} (h : s.ctrl.setWith .opened = some i) (tag : BitVec 16) :
    s.judgeTag tag =
      if tagDistance (s.ctrl.sets.get i).interval tag = 0 then .taken i
      else if tagDistance (s.ctrl.sets.get i).interval tag ≤ 32767 then .late else .ahead := by
  simp only [State.judgeTag, h, tagOf_sub_toNat]

/-- With no window open, the distance from the last closed interval decides. -/
theorem State.judgeTag_of_no_open {s : State} (h : s.ctrl.setWith .opened = none) (tag : BitVec 16) :
    s.judgeTag tag = if tagDistance s.ctrl.lastClosed tag ≤ 32767 then .late else .ahead := by
  simp only [State.judgeTag, h, tagOf_sub_toNat]

/-- With no window open no tag is taken. -/
theorem State.judgeTag_late_or_ahead_of_no_open {s : State} (h : s.ctrl.setWith .opened = none) (tag : BitVec 16) :
    s.judgeTag tag = .late ∨ s.judgeTag tag = .ahead := by
  rw [State.judgeTag_of_no_open h]
  split
  · exact .inl rfl
  · exact .inr rfl

/-- In STOPPING the slot sets' law leaves no window open. -/
theorem SlotLaw.setWith_opened_of_stopping {s : State} (h : SlotLaw s) (hs : s.ctrl.acc = .stopping) :
    s.ctrl.setWith .opened = none :=
  Controller.setWith_eq_none.mpr (h.stopping hs).2

/-! ## A delivery (R60) -/

/-- Deliveries are judged in RUNNING and STOPPING. -/
theorem State.accounting_iff {s : State} : s.accounting = true ↔ s.ctrl.acc = .running ∨ s.ctrl.acc = .stopping := by
  simp [State.accounting]

/-- A delivery that is not judged changes nothing. -/
theorem State.deliver_of_not_accounting {s : State} (h : ¬ s.accounting = true) (l : Fin 8) (d : Delivery) :
    s.deliver l d = s := if_neg h

/-- A delivery taken replaces what its link's slot of the open window holds. -/
theorem State.deliver_of_taken {s : State} {d : Delivery} {i : Fin 2} (ha : s.accounting = true)
    (h : s.judgeTag d.tag = .taken i) (l : Fin 8) :
    s.deliver l d =
      s.putSet i { s.ctrl.sets.get i with links := (s.ctrl.sets.get i).links.set l (some d) } := by
  simp only [State.deliver, if_pos ha, h]

/-- A late or ahead delivery is dropped with one TIMING event. -/
theorem State.deliver_of_late_or_ahead {s : State} {d : Delivery} (ha : s.accounting = true)
    (h : s.judgeTag d.tag = .late ∨ s.judgeTag d.tag = .ahead) (l : Fin 8) :
    s.deliver l d = s.errorEvent l .timing := by
  obtain hlate | hahead := h
  · simp only [State.deliver, if_pos ha, hlate]
  · simp only [State.deliver, if_pos ha, hahead]

/-- Settles O28: the judgement by its distance, with a window open and with none, and a delivery by its judgement. -/
theorem tagsAreJudgedByTheirDistance : Obligations.TagsAreJudgedByTheirDistance := by
  refine ⟨?opened, ?notOpen, ?notJudged, ?judged, ?stopping⟩
  case opened =>
    intro tag s i hopen d
    rw [State.judgeTag_of_open hopen]
    refine ⟨fun hzero => if_pos hzero, fun hpos hle => ?late, fun hge => ?ahead⟩
    case late => exact (if_neg (Nat.ne_of_gt hpos)).trans (if_pos hle)
    case ahead =>
      have hpos : 0 < d := Nat.lt_of_lt_of_le (by decide) hge
      exact (if_neg (Nat.ne_of_gt hpos)).trans (if_neg (Nat.not_le.mpr hge))
  case notOpen =>
    intro tag s hnone d
    rw [State.judgeTag_of_no_open hnone]
    exact ⟨fun hle => if_pos hle, fun hge => if_neg (Nat.not_le.mpr hge)⟩
  case notJudged =>
    intro l d s hrun hstop
    exact State.deliver_of_not_accounting (fun ha => (State.accounting_iff.mp ha).elim hrun hstop) l d
  case judged =>
    intro l d s hacc
    have ha := State.accounting_iff.mpr hacc
    exact ⟨fun i htaken => State.deliver_of_taken ha htaken l, fun hdrop => State.deliver_of_late_or_ahead ha hdrop l⟩
  case stopping =>
    intro tag s hlaw hstop
    exact State.judgeTag_late_or_ahead_of_no_open (hlaw.setWith_opened_of_stopping hstop) tag

end Sys2Proof.Machine
end

section
/-! PROOFS. Reconciliation (R69 to R83): one counter delivered and not delivered, the shared part of a source not delivered, the
ledger of a counter, and the two statements assembled from these. -/

namespace Sys2Proof.Machine

/-! ## A counter delivered (R74 to R76, R79 to R81) -/

/-- From a baseline inside the register, the increment is one remainder. -/
theorem increment_of_lt {modulus base : Nat} (h : base < modulus) (v : Nat) :
    increment modulus v base = (v + modulus - base) % modulus := by
  rw [increment, Nat.mod_eq_of_lt h]

section Delivered
variable {modulus step k v : Nat} {c : CounterSet}

/-- A plausible increment in TRACKING first repays the debt (R75). -/
theorem CounterSet.delivered_tracking_of_le (h : increment modulus v c.base ≤ step) :
    c.delivered modulus step .tracking k v =
      (⟨v, c.sum, c.debt - increment modulus v c.base, increment modulus v c.base,
        increment modulus v c.base - c.debt⟩, .empty) :=
  if_pos h

/-- An implausible increment in TRACKING books the last increment and takes a new baseline (R76). -/
theorem CounterSet.delivered_tracking_of_lt (h : step < increment modulus v c.base) :
    c.delivered modulus step .tracking k v = (⟨v, 0, 0, c.lastInc, c.lastInc⟩, ⟨true, false, true, false, false⟩) :=
  if_neg (Nat.not_le.mpr h)

/-- A plausible increment in ESTIMATING is set against the counts estimated and the debt (R79). -/
theorem CounterSet.delivered_estimating_of_le (h : increment modulus v c.base ≤ step * (k + 1))
    (hd : c.sum + c.debt - increment modulus v c.base < modulus) :
    c.delivered modulus step .estimating k v =
      (⟨v, 0, c.sum + c.debt - increment modulus v c.base, increment modulus v c.base / (k + 1),
        increment modulus v c.base - (c.sum + c.debt)⟩, ⟨true, false, false, false, false⟩) :=
  if_pos ⟨h, hd⟩

/-- An implausible increment or a debt overflow in ESTIMATING books nothing and takes a new baseline (R80). -/
theorem CounterSet.delivered_estimating_of_lt
    (h : step * (k + 1) < increment modulus v c.base ∨ modulus ≤ c.sum + c.debt - increment modulus v c.base) :
    c.delivered modulus step .estimating k v = (⟨v, 0, 0, c.lastInc, 0⟩, ⟨false, false, true, false, false⟩) :=
  if_neg fun ⟨hle, hlt⟩ => h.elim (Nat.not_lt.mpr hle) (Nat.not_le.mpr hlt)

/-- A counter raises no MANUAL of its own (R71). -/
theorem CounterSet.delivered_not_manual (modulus step : Nat) (st : SrcState) (k v : Nat) (c : CounterSet) :
    (c.delivered modulus step st k v).2.manual = false := by
  cases st with
  | unset => rfl
  | tracking =>
    by_cases h : increment modulus v c.base ≤ step
    · rw [CounterSet.delivered_tracking_of_le h]; rfl
    · rw [CounterSet.delivered_tracking_of_lt (Nat.not_le.mp h)]
  | estimating =>
    by_cases h : increment modulus v c.base ≤ step * (k + 1) ∧ c.sum + c.debt - increment modulus v c.base < modulus
    · obtain ⟨hle, hfits⟩ := h
      rw [CounterSet.delivered_estimating_of_le hle hfits]
    · rw [CounterSet.delivered_estimating_of_lt (by omega)]
  | lost => rfl

/-- The MANUAL of a point's quality is its reading's. -/
theorem Quality.withManual_of_not_manual {q : Quality} (h : q.manual = false) (m : Bool) :
    q.withManual m = { q with manual := m } := by
  simp [Quality.withManual, h]

end Delivered

/-! ## A counter and the shared part of a source not delivered (R74, R77, R78, R81) -/

section Missed
variable {h k : Nat} {c : CounterSet} {n : BitVec 32} {x : SrcHead}

theorem CounterSet.missed_tracking_of_hold (hh : 1 ≤ h) :
    c.missed h .tracking k = { c with sum := c.lastInc, booked := c.lastInc } := if_pos hh

theorem CounterSet.missed_tracking_of_no_hold (hh : h = 0) : c.missed h .tracking k = { c with booked := 0 } :=
  if_neg (Nat.not_le.mpr (Nat.lt_one_iff.mpr hh))

theorem CounterSet.missed_estimating_of_lt (hk : k < h) :
    c.missed h .estimating k = { c with sum := c.sum + c.lastInc, booked := c.lastInc } := if_pos hk

theorem CounterSet.missed_estimating_of_le (hk : h ≤ k) : c.missed h .estimating k = { c with booked := 0 } :=
  if_neg (Nat.not_lt.mpr hk)

theorem SrcHead.missed_of_unset (hs : x.state = .unset) :
    x.missed h n = ⟨.unset, x.run, ⟨false, true, false, false, false⟩, n⟩ := by
  simp only [SrcHead.missed, hs, qIncomplete]

theorem SrcHead.missed_of_lost (hs : x.state = .lost) :
    x.missed h n = ⟨.lost, x.run, ⟨false, true, false, false, false⟩, n⟩ := by
  simp only [SrcHead.missed, hs, qIncomplete]

theorem SrcHead.missed_of_tracking_of_hold (hs : x.state = .tracking) (hh : 1 ≤ h) :
    x.missed h n = ⟨.estimating, 1, ⟨true, false, false, false, false⟩, n⟩ := by
  simp only [SrcHead.missed, hs, if_pos hh, qEstimated]

theorem SrcHead.missed_of_tracking_of_no_hold (hs : x.state = .tracking) (hh : h = 0) :
    x.missed h n = ⟨.lost, 0, ⟨false, true, false, false, false⟩, n⟩ := by
  simp only [SrcHead.missed, hs, if_neg (Nat.not_le.mpr (Nat.lt_one_iff.mpr hh)), qIncomplete]

theorem SrcHead.missed_of_estimating_of_lt (hs : x.state = .estimating) (hk : x.run < h) :
    x.missed h n = ⟨.estimating, x.run + 1, ⟨true, false, false, false, false⟩, n⟩ := by
  simp only [SrcHead.missed, hs, if_pos hk, qEstimated]

theorem SrcHead.missed_of_estimating_of_le (hs : x.state = .estimating) (hk : h ≤ x.run) :
    x.missed h n = ⟨.lost, 0, ⟨false, true, false, false, false⟩, n⟩ := by
  simp only [SrcHead.missed, hs, if_neg (Nat.not_lt.mpr hk), qIncomplete]

end Missed

/-! ## Points and lines (R71, R72, R82) -/

/-- A point delivered is one counter set of modulus 2^24 with its reading's MANUAL. -/
theorem PointRecord.reconcile_some (h step : Nat) (n : BitVec 32) (r : PointRecord) (x : Reading) :
    let c := r.counter.delivered 16777216 step r.head.state r.head.run x.value.toNat
    r.reconcile h step n (some x) = ⟨⟨.tracking, 0, { c.2 with manual := x.manual }, n⟩, c.1⟩ := by
  intro c
  rw [← Quality.withManual_of_not_manual (CounterSet.delivered_not_manual ..)]
  rfl

/-- Only a line that is not OFF misses an interval. -/
theorem LineRecord.reconcile_none_of_not_off (h step : Nat) (n : BitVec 32) (r : LineRecord) {st : LineState}
    (hst : st ≠ .off) :
    r.reconcile h step n st none =
      { r with
          head := r.head.missed h n
          gobs := r.gobs.missed h r.head.state r.head.run
          packed := r.packed.missed h r.head.state r.head.run } :=
  if_neg hst

/-! ## The ledger of a counter (R83) -/

/-- R83 for a ledger in each state, with what TRACKING adds to it: no estimate is outstanding. -/
def Ledger.Accounts (x : Ledger) : Prop :=
  match x.state with
  | .unset => True
  | .tracking => x.counter.sum = 0 ∧ x.booked = x.observed + x.counter.debt
  | .estimating => x.booked = x.observed + x.counter.sum + x.counter.debt
  | .lost => True

theorem Ledger.accounts_tracking {k booked observed : Nat} {c : CounterSet} :
    (Ledger.mk .tracking k c booked observed).Accounts ↔ c.sum = 0 ∧ booked = observed + c.debt := Iff.rfl

theorem Ledger.accounts_estimating {k booked observed : Nat} {c : CounterSet} :
    (Ledger.mk .estimating k c booked observed).Accounts ↔ booked = observed + c.sum + c.debt := Iff.rfl

/-- The account law in TRACKING and ESTIMATING. -/
theorem Ledger.Accounts.booked_eq {x : Ledger} (hx : x.Accounts) (hs : x.state = .tracking ∨ x.state = .estimating) :
    x.booked = x.observed + x.counter.sum + x.counter.debt := by
  obtain ⟨st, k, c, booked, observed⟩ := x
  rcases hs with rfl | rfl
  · obtain ⟨hsum, hbooked⟩ := Ledger.accounts_tracking.mp hx
    simp only [hsum, hbooked, Nat.add_zero]
  · exact Ledger.accounts_estimating.mp hx

section LedgerStep
variable {modulus step v : Nat} {x : Ledger}

/-- A delivery that takes the baseline leaves nothing estimated and nothing owed. -/
theorem delivered_of_takesBaseline (h : takesBaseline modulus step (increment modulus v x.counter.base) x = true) :
    (x.counter.delivered modulus step x.state x.run v).1.sum = 0 ∧
      (x.counter.delivered modulus step x.state x.run v).1.debt = 0 := by
  obtain ⟨st, k, c, booked, observed⟩ := x
  cases st with
  | unset => exact ⟨rfl, rfl⟩
  | tracking => rw [CounterSet.delivered_tracking_of_lt (of_decide_eq_true h)]; exact ⟨rfl, rfl⟩
  | estimating => rw [CounterSet.delivered_estimating_of_lt (of_decide_eq_true h)]; exact ⟨rfl, rfl⟩
  | lost => exact ⟨rfl, rfl⟩

/-- A delivery that keeps the baseline books its increment less what was estimated and owed, and owes what remains. -/
theorem delivered_of_not_takesBaseline (hx : x.Accounts)
    (h : takesBaseline modulus step (increment modulus v x.counter.base) x = false) :
    let c := (x.counter.delivered modulus step x.state x.run v).1
    c.sum = 0 ∧ x.booked + c.booked = x.observed + increment modulus v x.counter.base + c.debt := by
  obtain ⟨st, k, c, booked, observed⟩ := x
  cases st with
  | unset => cases h
  | tracking =>
    obtain ⟨hsum, hbooked⟩ := Ledger.accounts_tracking.mp hx
    have hplausible := Nat.not_lt.mp (of_decide_eq_false h)
    simp only [CounterSet.delivered_tracking_of_le hplausible]
    omega
  | estimating =>
    have hbooked := Ledger.accounts_estimating.mp hx
    obtain ⟨hplausible, hfits⟩ := not_or.mp (of_decide_eq_false h)
    simp only [CounterSet.delivered_estimating_of_le (Nat.not_lt.mp hplausible) (Nat.not_le.mp hfits), true_and]
    omega
  | lost => cases h

/-- A delivery keeps the ledger: either its baseline is taken anew, or what is booked stands against what is observed. -/
theorem ledgerStep_some_accounts (hx : x.Accounts) (h : Nat) : (ledgerStep modulus h step (some v) x).Accounts := by
  cases hb : takesBaseline modulus step (increment modulus v x.counter.base) x with
  | true =>
    obtain ⟨hsum, hdebt⟩ := delivered_of_takesBaseline hb
    simp only [ledgerStep, hb, if_true, Ledger.accounts_tracking, hsum, hdebt, true_and]
  | false =>
    simp only [ledgerStep, hb, Bool.false_eq_true, if_false, Ledger.accounts_tracking]
    exact delivered_of_not_takesBaseline hx hb

/-- A missed interval keeps the ledger: what it books as an estimate it adds to the estimate sum, and past the hold limit the
source is LOST. -/
theorem ledgerStep_none_accounts (hx : x.Accounts) (h : Nat) : (ledgerStep modulus h step none x).Accounts := by
  obtain ⟨st, k, c, booked, observed⟩ := x
  cases st with
  | unset => trivial
  | tracking =>
    obtain ⟨hsum, hbooked⟩ := Ledger.accounts_tracking.mp hx
    by_cases hh : 1 ≤ h
    · simp only [ledgerStep, SrcHead.missed_of_tracking_of_hold (x := ⟨_, k, _, _⟩) rfl hh, CounterSet.missed_tracking_of_hold hh,
        Ledger.accounts_estimating]
      omega
    · have hno : h = 0 := by omega
      simp only [ledgerStep, SrcHead.missed_of_tracking_of_no_hold (x := ⟨_, k, _, _⟩) rfl hno]
      trivial
  | estimating =>
    have hbooked := Ledger.accounts_estimating.mp hx
    by_cases hk : k < h
    · simp only [ledgerStep, SrcHead.missed_of_estimating_of_lt (x := ⟨_, k, _, _⟩) rfl hk,
        CounterSet.missed_estimating_of_lt hk, Ledger.accounts_estimating]
      omega
    · simp only [ledgerStep, SrcHead.missed_of_estimating_of_le (x := ⟨_, k, _, _⟩) rfl (Nat.not_lt.mp hk)]
      trivial
  | lost => trivial

end LedgerStep

theorem ledgerStep_accounts {x : Ledger} (hx : x.Accounts) (modulus h step : Nat) (v : Option Nat) :
    (ledgerStep modulus h step v x).Accounts := by
  cases v with
  | none => exact ledgerStep_none_accounts hx h
  | some v => exact ledgerStep_some_accounts hx h

/-- Settles O42: every reconciliation of a run keeps the ledger, and a baseline just taken starts it. -/
theorem bookedCountsFollowTheAccountLaw : Obligations.BookedCountsFollowTheAccountLaw := by
  intro modulus v0 run _ _ _ x
  have hstart : (Ledger.mk .tracking 0 ⟨v0, 0, 0, 0, 0⟩ 0 0).Accounts := Ledger.accounts_tracking.mpr ⟨rfl, rfl⟩
  have hend : x.Accounts :=
    List.foldlRecOn run _ hstart fun _ hx o _ => ledgerStep_accounts hx modulus o.1 o.2.1 o.2.2
  exact hend.booked_eq

/-- Settles O41: a counter delivered and missed, the shared part missed, and a point and a line by their counter sets. -/
theorem reconciliationMachineFollowsItsTable : Obligations.ReconciliationMachineFollowsItsTable := by
  refine ⟨?delivered, ?missed, ?head, ?point, ?line⟩
  case delivered =>
    intro modulus step k v c _ hbase d owed
    have hd : increment modulus v c.base = d := increment_of_lt hbase v
    rw [← hd]
    exact ⟨rfl, rfl, CounterSet.delivered_tracking_of_le, CounterSet.delivered_tracking_of_lt,
      CounterSet.delivered_estimating_of_le, CounterSet.delivered_estimating_of_lt⟩
  case missed =>
    intro h k c
    exact ⟨rfl, rfl, CounterSet.missed_tracking_of_hold, CounterSet.missed_tracking_of_no_hold,
      CounterSet.missed_estimating_of_lt, CounterSet.missed_estimating_of_le⟩
  case head =>
    intro h n x
    exact ⟨SrcHead.missed_of_unset, SrcHead.missed_of_lost, SrcHead.missed_of_tracking_of_hold,
      SrcHead.missed_of_tracking_of_no_hold, SrcHead.missed_of_estimating_of_lt, SrcHead.missed_of_estimating_of_le⟩
  case point =>
    intro h step n r
    exact ⟨r.reconcile_some h step n, rfl⟩
  case line =>
    intro h step n st r
    exact ⟨fun _ => rfl, rfl, r.reconcile_none_of_not_off h step n⟩

end Sys2Proof.Machine
end

section
/-! PROOFS. READ POINT STATE (R88): what the source table answers for each kind and index, the read that carries it, and the
statement assembled from these. -/

namespace Sys2Proof.Machine

/-! ## What the source table answers -/

/-- Kind 0 with a point's index copies its record. -/
theorem pointStateCopy_point (s : State) (q : Fin 128) :
    pointStateCopy s 0 q.val = .ok (pointBytes (s.sources.points.get q) (s.residues.get q)) := by
  simp only [pointStateCopy, toIdx_val]

/-- Kind 1 with a line's index copies its record. -/
theorem pointStateCopy_line (s : State) (l : Fin 12) :
    pointStateCopy s 1 l.val = .ok (lineBytes (s.sources.lines.get l)) := by
  simp only [pointStateCopy, toIdx_val]

/-- An index beyond the points is refused with the POINT table. -/
theorem pointStateCopy_point_of_lt (s : State) {index : Nat} (h : 127 < index) :
    pointStateCopy s 0 index = .error (.range ⟨2, index, 0⟩) := by
  simp only [pointStateCopy, toIdx_of_le (Nat.succ_le_of_lt h), rangeFault, tablePoint]

/-- An index beyond the lines is refused with the LINE table. -/
theorem pointStateCopy_line_of_lt (s : State) {index : Nat} (h : 11 < index) :
    pointStateCopy s 1 index = .error (.range ⟨4, index, 0⟩) := by
  simp only [pointStateCopy, toIdx_of_le (Nat.succ_le_of_lt h), rangeFault, tableLine]

/-- A kind beyond 1 is refused whatever the index. -/
theorem pointStateCopy_of_kind_lt (s : State) {kind : Nat} (h : 1 < kind) (index : Nat) :
    pointStateCopy s kind index = .error (.range ⟨0, kind, 1⟩) := by
  match kind, h with
  | _ + 2, _ => rfl

/-! ## The read -/

section Read
variable {p : Port} {kind index : Byte} {rest : List Byte} {s : State}

/-- With both selector bytes the transaction has its length (R166). -/
theorem lengthSuits_readPointState (kind index : Byte) (rest : List Byte) :
    lengthSuits .readPointState (1 + (kind :: index :: rest).length) = true :=
  (lengthSuits_read rfl _).mpr (Nat.le_add_left 2 rest.length)

/-- Outside BOOTING, what the source table copies is what the port sends. -/
theorem exec_readPointState_copied {copy : List Byte} (h : s.ctrl.acc ≠ .booting)
    (hc : pointStateCopy s kind.toNat index.toNat = .ok copy) :
    exec (.readPointState ⟨p, kind :: index :: rest⟩) s = .next (s.copied p 2 rest.length copy) :=
  congrArg Host.Outcome.next
    (readTransaction_copied (t := ⟨p, kind :: index :: rest⟩) (.inl h) (lengthSuits_readPointState kind index rest) hc)

/-- Outside BOOTING, what the source table refuses is refused with its detail. -/
theorem exec_readPointState_range {d : Detail} (h : s.ctrl.acc ≠ .booting)
    (hc : pointStateCopy s kind.toNat index.toNat = .error (.range d)) :
    exec (.readPointState ⟨p, kind :: index :: rest⟩) s = .next (s.readRefusedRange p d 2 rest.length) :=
  congrArg Host.Outcome.next
    (readTransaction_range (t := ⟨p, kind :: index :: rest⟩) (.inl h) (lengthSuits_readPointState kind index rest) hc)

end Read

/-- Settles O11: the read carries what the source table answers, by kind and index. -/
theorem readPointStateCopiesTheRecord : Obligations.ReadPointStateCopiesTheRecord := by
  intro p kind index rest s hacc
  refine ⟨?point, ?line, ?badPoint, ?badLine, ?badKind⟩
  case point =>
    rintro q rfl hindex
    exact exec_readPointState_copied hacc (hindex ▸ pointStateCopy_point s q)
  case line =>
    rintro l rfl hindex
    exact exec_readPointState_copied hacc (hindex ▸ pointStateCopy_line s l)
  case badPoint =>
    rintro rfl hindex
    exact exec_readPointState_range hacc (pointStateCopy_point_of_lt s hindex)
  case badLine =>
    rintro rfl hindex
    exact exec_readPointState_range hacc (pointStateCopy_line_of_lt s hindex)
  case badKind =>
    intro hkind
    exact exec_readPointState_range hacc (pointStateCopy_of_kind_lt s hkind index.toNat)

end Sys2Proof.Machine
end

section
/-! PROOFS. Conversion (R92 to R95): the segment, the gain, the energy product, one conversion, a run of conversions, and the
statement assembled from these. -/

namespace Sys2Proof.Machine

/-! ## The segment of a count (R92) -/

section Segment
variable {c m : Nat}

theorem segmentOf_of_le (h : c * 16 / (m + 1) ≤ 15) : segmentOf c m = c * 16 / (m + 1) := Nat.min_eq_left h

theorem segmentOf_of_lt (h : 15 < c * 16 / (m + 1)) : segmentOf c m = 15 := Nat.min_eq_right (Nat.le_of_lt h)

/-- A count up to the max increment needs no limit. -/
theorem segment_quotient_le (h : c ≤ m) : c * 16 / (m + 1) ≤ 15 :=
  Nat.le_of_lt_succ ((Nat.div_lt_iff_lt_mul m.succ_pos).mpr (by omega))

/-- A count above the max increment is of the last segment. -/
theorem segmentOf_of_maxInc_lt (h : m < c) : segmentOf c m = 15 :=
  segmentOf_of_lt ((Nat.le_div_iff_mul_le m.succ_pos).mpr (by omega))

/-- Every count is of one of the sixteen segments. -/
theorem segmentOf_lt (c m : Nat) : segmentOf c m < 16 := Nat.lt_succ_of_le (Nat.min_le_right _ 15)

end Segment

/-! ## The gain of a segment (R93) -/

/-- A curve's gain of one of the sixteen segments. -/
theorem gainOf_some (curves : Tab 8 CurveEntry) (k : Fin 8) (s : Fin 16) :
    gainOf curves (some k) s.val = (curves.get k).gains.get s :=
  (List.getElem_eq_getD 0).symm

/-- Gains that fit 16 bits in every curve fit under every curve field, since no curve is a gain of 1.0. -/
theorem gainOf_le {curves : Tab 8 CurveEntry} (h : ∀ k s, (curves.get k).gains.get s ≤ 65535)
    (curve : Option (Fin 8)) (s : Fin 16) : gainOf curves curve s.val ≤ 65535 := by
  cases curve with
  | none => exact (by decide : 32768 ≤ 65535)
  | some k => exact (gainOf_some curves k s).trans_le (h k s)

/-! ## The energy product (R94) -/

section Product
variable {c g f : Nat}

/-- At a gain of 1.0 the division drops nothing. -/
theorem energyProduct_unit_gain (c f : Nat) : energyProduct c 32768 f = c * f := by
  rw [energyProduct, Nat.mul_right_comm, Nat.mul_div_cancel _ (by decide)]

@[simp] theorem energyProduct_zero_count (g f : Nat) : energyProduct 0 g f = 0 := by simp [energyProduct]

@[simp] theorem energyProduct_zero_factor (c g : Nat) : energyProduct c g 0 = 0 := by simp [energyProduct]

/-- A product of operands in their widths stays below 2^57 even with a residue added to it. -/
theorem energyProduct_add_residue_lt (hc : c < 16777216) (hg : g ≤ 65535) (hf : f ≤ 4294967295) :
    energyProduct c g f + 65536 < 2 ^ 57 := by
  have hcgf : c * g * f ≤ 16777215 * 65535 * 4294967295 := Nat.mul_le_mul (Nat.mul_le_mul (Nat.le_of_lt_succ hc) hg) hf
  simp only [energyProduct]
  omega

end Product

/-! ## One conversion (R91, R95) -/

/-- The energy product of a point's booked count under its entry and the curves in force. -/
def productOf (curves : Tab 8 CurveEntry) (e : PointEntry) (c : Nat) : Nat :=
  energyProduct c (gainOf curves e.curve (segmentOf c e.maxInc)) e.factor

section Convert
variable {curves : Tab 8 CurveEntry} {e : PointEntry} {c r : Nat}

theorem convert_of_zero (h : c = 0) : convert curves e c r = ⟨0, 0, r⟩ := if_pos h

theorem convert_of_ne_zero (h : c ≠ 0) :
    convert curves e c r =
      ⟨segmentOf c e.maxInc, (r + productOf curves e c) / 65536, (r + productOf curves e c) % 65536⟩ := if_neg h

/-- What a conversion books and the residue it leaves are the residue before it and its product, whole; a count of 0 has a
product of 0. -/
theorem convert_conserves (curves : Tab 8 CurveEntry) (e : PointEntry) (c r : Nat) :
    (convert curves e c r).kj * 65536 + (convert curves e c r).residue = r + productOf curves e c := by
  by_cases h : c = 0
  · rw [convert_of_zero h, h, productOf, energyProduct_zero_count, Nat.zero_mul, Nat.zero_add, Nat.add_zero]
  · rw [convert_of_ne_zero h]
    exact Nat.div_add_mod' _ 65536

/-- From operands in their widths a conversion books less than 2^41 kJ. -/
theorem convert_kj_lt (hc : c < 16777216) (hg : ∀ k s, (curves.get k).gains.get s ≤ 65535) (hf : e.factor ≤ 4294967295)
    (hr : r < 65536) : (convert curves e c r).kj < 2 ^ 41 := by
  have hgain := gainOf_le hg e.curve ⟨segmentOf c e.maxInc, segmentOf_lt ..⟩
  have hproduct : productOf curves e c + 65536 < 2 ^ 57 := energyProduct_add_residue_lt hc hgain hf
  have hbooked := convert_conserves curves e c r
  omega

end Convert

/-! ## A run of conversions (R95) -/

/-- The kilojoules booked so far and the residue, after one more conversion under the entries in force at it. -/
def bookConversion (x : Nat × Nat) (o : Tab 8 CurveEntry × PointEntry × Nat) : Nat × Nat :=
  (x.1 + (convert o.1 o.2.1 o.2.2 x.2).kj, (convert o.1 o.2.1 o.2.2 x.2).residue)

theorem bookConversion_conserves (x : Nat × Nat) (o : Tab 8 CurveEntry × PointEntry × Nat) :
    (bookConversion x o).1 * 65536 + (bookConversion x o).2 = x.1 * 65536 + x.2 + productOf o.1 o.2.1 o.2.2 := by
  rw [bookConversion, Nat.add_mul, Nat.add_assoc, convert_conserves, Nat.add_assoc]

/-- From any kilojoules and residue, a run adds its products and nothing else. -/
theorem foldl_bookConversion (run : List (Tab 8 CurveEntry × PointEntry × Nat)) (x : Nat × Nat) :
    (run.foldl bookConversion x).1 * 65536 + (run.foldl bookConversion x).2 =
      x.1 * 65536 + x.2 + (run.map fun o => productOf o.1 o.2.1 o.2.2).sum := by
  induction run generalizing x with
  | nil => rw [List.foldl_nil, List.map_nil, List.sum_nil, Nat.add_zero]
  | cons o run ih => rw [List.foldl_cons, ih, bookConversion_conserves, List.map_cons, List.sum_cons, Nat.add_assoc]

/-- Settles O44: the segment, product, gain and conversion by their equations and bounds, and the run by induction. -/
theorem conversionLosesNoEnergy : Obligations.ConversionLosesNoEnergy := by
  refine ⟨?segment, ?product, ?gain, ?conversion, ?run⟩
  case segment =>
    intro c m
    exact ⟨segmentOf_of_le, segmentOf_of_lt, segment_quotient_le, segmentOf_of_maxInc_lt⟩
  case product =>
    intro c g f
    exact ⟨rfl, energyProduct_unit_gain c f, energyProduct_zero_factor c g, fun hc hg hf =>
      (Nat.le_add_right _ _).trans_lt (energyProduct_add_residue_lt hc hg hf)⟩
  case gain =>
    intro curves s
    exact ⟨rfl, fun k => gainOf_some curves k s⟩
  case conversion =>
    intro curves e c r
    exact ⟨convert_of_zero, convert_of_ne_zero, convert_kj_lt⟩
  case run =>
    intro run r0 x
    have h := foldl_bookConversion run (0, r0)
    rw [Nat.zero_mul, Nat.zero_add] at h
    exact h

end Sys2Proof.Machine
end

section
/-! PROOFS. The largest-remainder split (R117): the lines' order in the ranking, the ranks of the taking-part lines, the leftover
against the remainders, one line's share, the sum of the shares, and the statement assembled from these. -/

namespace Sys2Proof.Machine

open Finset

/-- The lines that take part in a split. -/
def takingPart (w : Tab 12 Nat) : Finset (Fin 12) := {l | w.get l ≠ 0}

@[simp] theorem mem_takingPart {w : Tab 12 Nat} {l : Fin 12} : l ∈ takingPart w ↔ w.get l ≠ 0 := by simp [takingPart]

/-- Where a line stands in the ranking: the larger remainder first, then the lower number (R117 step 3). -/
def rankKey (e : Nat) (w : Tab 12 Nat) (l : Fin 12) : ℕᵒᵈ ×ₗ Fin 12 := toLex (OrderDual.toDual (remainder e w l), l)

/-- The taking-part lines that stand before line `l` in the ranking. -/
def linesBefore (e : Nat) (w : Tab 12 Nat) (l : Fin 12) : Finset (Fin 12) :=
  {j ∈ takingPart w | rankKey e w j < rankKey e w l}

section Split
variable {e : Nat} {w : Tab 12 Nat} {j l : Fin 12}

/-! ## The ranking (R117 step 3) -/

theorem rankKey_lt_iff :
    rankKey e w j < rankKey e w l ↔
      remainder e w l < remainder e w j ∨ (remainder e w l = remainder e w j ∧ j < l) := by
  simp [rankKey, Prod.Lex.toLex_lt_toLex, eq_comm]

/-- No two lines stand at the same place, since the place ends with the line's number. -/
theorem rankKey_injective (e : Nat) (w : Tab 12 Nat) : Function.Injective (rankKey e w) :=
  fun _ _ h => congrArg (fun k => (ofLex k).2) h

theorem mem_linesBefore : j ∈ linesBefore e w l ↔ w.get j ≠ 0 ∧ rankKey e w j < rankKey e w l := by
  simp [linesBefore]

/-- The model's order is that of the keys. -/
theorem ranksBefore_iff : ranksBefore e w j l = true ↔ rankKey e w j < rankKey e w l := by
  simp [ranksBefore, rankKey_lt_iff]

/-- A line's rank counts the lines before it. -/
theorem rankOf_eq_card (e : Nat) (w : Tab 12 Nat) (l : Fin 12) : rankOf e w l = #(linesBefore e w l) := by
  have hset : linesBefore e w l = ((indices 12).filter fun j => w.get j != 0 && ranksBefore e w j l).toFinset := by
    ext j
    simp [mem_linesBefore, ranksBefore_iff]
  rw [hset, rankOf]
  exact (List.toFinset_card_of_nodup ((List.nodup_finRange 12).filter _)).symm

/-- A line that takes part and stands before another has the smaller rank. -/
theorem rankOf_lt_of_rankKey_lt (hj : w.get j ≠ 0) (h : rankKey e w j < rankKey e w l) : rankOf e w j < rankOf e w l := by
  rw [rankOf_eq_card, rankOf_eq_card]
  refine card_lt_card (ssubset_iff_of_subset ?subset |>.mpr ⟨j, mem_linesBefore.mpr ⟨hj, h⟩, ?notBefore⟩)
  case subset =>
    intro i hi
    obtain ⟨hpart, hlt⟩ := mem_linesBefore.mp hi
    exact mem_linesBefore.mpr ⟨hpart, hlt.trans h⟩
  case notBefore => exact fun hself => lt_irrefl _ (mem_linesBefore.mp hself).2

theorem rankOf_injOn (e : Nat) (w : Tab 12 Nat) : Set.InjOn (rankOf e w) (takingPart w) := by
  intro j hj l hl heq
  rcases lt_trichotomy (rankKey e w j) (rankKey e w l) with hlt | hkey | hgt
  · exact absurd heq (rankOf_lt_of_rankKey_lt (mem_takingPart.mp hj) hlt).ne
  · exact rankKey_injective e w hkey
  · exact absurd heq (rankOf_lt_of_rankKey_lt (mem_takingPart.mp hl) hgt).ne'

theorem rankOf_lt_card (h : w.get l ≠ 0) : rankOf e w l < #(takingPart w) := by
  rw [rankOf_eq_card]
  exact card_lt_card (filter_ssubset.mpr ⟨l, mem_takingPart.mpr h, lt_irrefl _⟩)

/-- The ranks of the taking-part lines are 0, 1, 2 and so on, without a gap. -/
theorem image_rankOf (e : Nat) (w : Tab 12 Nat) : (takingPart w).image (rankOf e w) = range #(takingPart w) := by
  refine eq_of_subset_of_card_le ?below ?count
  case below =>
    exact image_subset_iff.mpr fun l hl => mem_range.mpr (rankOf_lt_card (mem_takingPart.mp hl))
  case count => rw [card_range, card_image_of_injOn (rankOf_injOn e w)]

/-- So the first `n` places hold `n` lines, as long as that many take part. -/
theorem card_rankOf_lt {n : Nat} (h : n ≤ #(takingPart w)) : #{l ∈ takingPart w | rankOf e w l < n} = n := by
  have himage : {l ∈ takingPart w | rankOf e w l < n}.image (rankOf e w) = range n := by
    rw [← filter_image (p := (· < n)), image_rankOf]
    ext k
    simp only [mem_filter, mem_range]
    omega
  rw [← card_image_of_injOn ((rankOf_injOn e w).mono (coe_subset.mpr (filter_subset ..))), himage, card_range]

/-! ## The leftover (R117 steps 1 and 2) -/

theorem weightSum_pos (h : w.get l ≠ 0) : 0 < weightSum w := by
  rw [weightSum, sumIdx_eq_sum]
  exact (Nat.pos_of_ne_zero h).trans_le (single_le_sum (fun _ _ => Nat.zero_le _) (mem_univ l))

theorem weightSum_mul_floorShare_add_remainder (e : Nat) (w : Tab 12 Nat) (l : Fin 12) :
    weightSum w * floorShare e w l + remainder e w l = e * w.get l :=
  Nat.div_add_mod ..

theorem floorShare_of_weight_zero (h : w.get l = 0) : floorShare e w l = 0 := by simp [floorShare, h]

theorem remainder_of_weight_zero (h : w.get l = 0) : remainder e w l = 0 := by simp [remainder, h]

theorem weightSum_mul_sum_floorShare_add_sum_remainder (e : Nat) (w : Tab 12 Nat) :
    weightSum w * ∑ l, floorShare e w l + ∑ l, remainder e w l = e * weightSum w := by
  conv_rhs => rw [weightSum, sumIdx_eq_sum, mul_sum]
  rw [mul_sum, ← sum_add_distrib]
  exact sum_congr rfl fun l _ => weightSum_mul_floorShare_add_remainder e w l

/-- The floor shares and the leftover make up the amount: the subtraction of R117 step 2 never cuts off. -/
theorem sum_floorShare_add_leftover (h : 0 < weightSum w) : ∑ l, floorShare e w l + leftover e w = e := by
  have hwhole := weightSum_mul_sum_floorShare_add_sum_remainder e w
  have hle : ∑ l, floorShare e w l ≤ e :=
    Nat.le_of_mul_le_mul_left (by rw [Nat.mul_comm _ e]; omega) h
  rw [leftover, sumIdx_eq_sum]
  exact Nat.add_sub_of_le hle

/-- The remainders hold the leftover, whole. -/
theorem weightSum_mul_leftover (h : 0 < weightSum w) : weightSum w * leftover e w = ∑ l, remainder e w l := by
  have hwhole := weightSum_mul_sum_floorShare_add_sum_remainder e w
  have hsplit : weightSum w * ∑ l, floorShare e w l + weightSum w * leftover e w = e * weightSum w := by
    rw [← Nat.mul_add, sum_floorShare_add_leftover h, Nat.mul_comm]
  omega

/-- The leftover is below the number of any lines outside of which nothing remains, since each remainder is below the sum of
the weights. -/
theorem leftover_lt_card {part : Finset (Fin 12)} (h : 0 < weightSum w) (hpart : part.Nonempty)
    (hzero : ∀ l ∉ part, remainder e w l = 0) : leftover e w < #part := by
  refine Nat.lt_of_mul_lt_mul_left (a := weightSum w) ?_
  calc weightSum w * leftover e w
      = ∑ l ∈ part, remainder e w l := by
        rw [weightSum_mul_leftover h, sum_subset (subset_univ part) fun l _ hl => hzero l hl]
    _ < ∑ _l ∈ part, weightSum w := sum_lt_sum_of_nonempty hpart fun _ _ => Nat.mod_lt _ h
    _ = weightSum w * #part := by rw [sum_const, smul_eq_mul, Nat.mul_comm]

theorem leftover_lt_card_takingPart (h : w.get l ≠ 0) : leftover e w < #(takingPart w) :=
  leftover_lt_card (weightSum_pos h) ⟨l, mem_takingPart.mpr h⟩ fun _ hj =>
    remainder_of_weight_zero (not_not.mp (mt mem_takingPart.mpr hj))

/-- A kilojoule of the leftover goes only where something remains: every line of a larger remainder stands before, and the
leftover does not reach past these. -/
theorem remainder_pos_of_rankOf_lt (h : w.get l ≠ 0) (hrank : rankOf e w l < leftover e w) : 0 < remainder e w l := by
  by_contra hnone
  have hzero : ∀ j ∉ insert l (linesBefore e w l), remainder e w j = 0 := by
    intro j hj
    by_contra hsome
    have hweight : w.get j ≠ 0 := mt remainder_of_weight_zero hsome
    exact hj (mem_insert_of_mem (mem_linesBefore.mpr ⟨hweight, rankKey_lt_iff.mpr (.inl (by omega))⟩))
  have hreach := leftover_lt_card (weightSum_pos h) (insert_nonempty ..) hzero
  have hcount := card_insert_le l (linesBefore e w l)
  rw [← rankOf_eq_card] at hcount
  omega

/-! ## One line's share (R117 step 4) -/

theorem share_of_weight_zero (h : w.get l = 0) : share e w l = 0 := if_pos h

theorem share_of_rankOf_lt (h : w.get l ≠ 0) (hrank : rankOf e w l < leftover e w) :
    share e w l = floorShare e w l + 1 := by
  rw [share, if_neg h, if_pos hrank]

theorem share_of_leftover_le (h : w.get l ≠ 0) (hrank : leftover e w ≤ rankOf e w l) : share e w l = floorShare e w l := by
  rw [share, if_neg h, if_neg (Nat.not_lt.mpr hrank), Nat.add_zero]

/-- A share is the floor share, or one kilojoule more for a line that takes part and is among the first of the ranking. -/
theorem share_cases (e : Nat) (w : Tab 12 Nat) (l : Fin 12) :
    share e w l = floorShare e w l ∨
      w.get l ≠ 0 ∧ rankOf e w l < leftover e w ∧ share e w l = floorShare e w l + 1 := by
  by_cases h : w.get l = 0
  · exact .inl ((share_of_weight_zero h).trans (floorShare_of_weight_zero h).symm)
  · rcases Nat.lt_or_ge (rankOf e w l) (leftover e w) with hfirst | hrest
    · exact .inr ⟨h, hfirst, share_of_rankOf_lt h hfirst⟩
    · exact .inl (share_of_leftover_le h hrest)

theorem floorShare_le_share (e : Nat) (w : Tab 12 Nat) (l : Fin 12) : floorShare e w l ≤ share e w l := by
  rcases share_cases e w l with hfloor | ⟨_, _, hmore⟩ <;> omega

theorem share_zero_amount (w : Tab 12 Nat) (l : Fin 12) : share 0 w l = 0 := by
  have hfloor : floorShare 0 w l = 0 := by simp [floorShare]
  have hleft : leftover 0 w = 0 := Nat.zero_sub _
  rcases share_cases 0 w l with hshare | ⟨_, hrank, _⟩ <;> omega

/-- One kilojoule more than a share is above the exact part. -/
theorem exact_lt_share_add_one (h : 0 < weightSum w) (l : Fin 12) : e * w.get l < (share e w l + 1) * weightSum w := by
  calc e * w.get l < (floorShare e w l + 1) * weightSum w := Nat.lt_mul_of_div_lt (Nat.lt_succ_self _) h
    _ ≤ (share e w l + 1) * weightSum w := Nat.mul_le_mul_right _ (Nat.succ_le_succ (floorShare_le_share e w l))

/-- A share is less than one kilojoule above the exact part. -/
theorem share_lt_exact_add_one (h : 0 < weightSum w) (l : Fin 12) :
    share e w l * weightSum w < e * w.get l + weightSum w := by
  have hexact := weightSum_mul_floorShare_add_remainder e w l
  rcases share_cases e w l with hfloor | ⟨hweight, hrank, hmore⟩
  · rw [hfloor, Nat.mul_comm]
    omega
  · have hpos := remainder_pos_of_rankOf_lt hweight hrank
    rw [hmore, Nat.mul_comm, Nat.mul_succ]
    omega

/-- Of two lines with the same floor share, the one of the larger weight stands before the other. -/
theorem rankKey_lt_of_weight_lt (he : e ≠ 0) (h : w.get j < w.get l) (hfloor : floorShare e w j = floorShare e w l) :
    rankKey e w l < rankKey e w j := by
  have hj := weightSum_mul_floorShare_add_remainder e w j
  have hl := weightSum_mul_floorShare_add_remainder e w l
  have hexact : e * w.get j < e * w.get l := Nat.mul_lt_mul_of_pos_left h (Nat.pos_of_ne_zero he)
  rw [hfloor] at hj
  exact rankKey_lt_iff.mpr (.inl (by omega))

theorem share_le_of_weight_lt (h : w.get j < w.get l) : share e w j ≤ share e w l := by
  have hfloor : floorShare e w j ≤ floorShare e w l := Nat.div_le_div_right (Nat.mul_le_mul_left e h.le)
  have hl := floorShare_le_share e w l
  rcases share_cases e w j with hj | ⟨_, hrank, hj⟩
  · omega
  · rcases hfloor.lt_or_eq with hless | hsame
    · omega
    · have hweight : w.get l ≠ 0 := by omega
      have he : e ≠ 0 := by
        rintro rfl
        exact absurd (share_zero_amount w j) (by omega)
      have hfirst := rankOf_lt_of_rankKey_lt hweight (rankKey_lt_of_weight_lt he h hsame)
      rw [hj, hsame, share_of_rankOf_lt hweight (hfirst.trans hrank)]

/-! ## The sum of the shares -/

theorem share_eq_add_ite (e : Nat) (w : Tab 12 Nat) (l : Fin 12) :
    share e w l = floorShare e w l + if w.get l ≠ 0 ∧ rankOf e w l < leftover e w then 1 else 0 := by
  by_cases h : w.get l = 0
  · rw [share_of_weight_zero h, floorShare_of_weight_zero h, if_neg fun hpart => hpart.1 h]
  · simp [share, h]

/-- The first of the ranking are as many as the leftover, so the shares are the amount. -/
theorem sum_share (h : w.get l ≠ 0) : ∑ i, share e w i = e := by
  have hfirst : {i ∈ takingPart w | rankOf e w i < leftover e w} =
      ({i | w.get i ≠ 0 ∧ rankOf e w i < leftover e w} : Finset (Fin 12)) := filter_filter ..
  calc ∑ i, share e w i
      = ∑ i, floorShare e w i + #{i | w.get i ≠ 0 ∧ rankOf e w i < leftover e w} := by
        simp only [share_eq_add_ite, sum_add_distrib, sum_boole, Nat.cast_id]
    _ = ∑ i, floorShare e w i + leftover e w := by
        rw [← hfirst, card_rankOf_lt (leftover_lt_card_takingPart h).le]
    _ = e := sum_floorShare_add_leftover (weightSum_pos h)

end Split

/-- Settles O46: the counts and sums of the statement are the model's, and each part is its own rule. -/
theorem splitSharesSumToTheAmount : Obligations.SplitSharesSumToTheAmount := by
  intro e w ⟨i, hi⟩ total floorOf rest left before rank
  have htotal : total = weightSum w := (sumIdx_eq_sum w.get).symm
  have hfloor : floorOf = floorShare e w := funext fun l => congrArg (e * w.get l / ·) htotal
  have hrest : rest = remainder e w := funext fun l => congrArg (e * w.get l % ·) htotal
  have hleft : left = leftover e w := by rw [leftover, sumIdx_eq_sum, ← hfloor]
  have hrank : rank = rankOf e w := by
    funext l
    rw [rankOf_eq_card, ← Set.ncard_coe_finset]
    refine congrArg Set.ncard (Set.ext fun j => ?_)
    rw [mem_coe, mem_linesBefore, rankKey_lt_iff, ← hrest]
    rfl
  have hpart : {j : Fin 12 | w.get j ≠ 0}.ncard = #(takingPart w) := by
    rw [← Set.ncard_coe_finset]
    exact congrArg Set.ncard (Set.ext fun j => mem_takingPart.symm)
  rw [hpart]
  clear_value total floorOf rest left before rank
  subst htotal hfloor hrest hleft hrank
  refine ⟨sum_share hi, leftover_lt_card_takingPart hi, fun _ => share_of_weight_zero, fun _ => share_of_rankOf_lt,
    fun _ => share_of_leftover_le, fun l => ⟨?above, ?below⟩, fun _ _ => share_le_of_weight_lt, ?zero⟩
  case above => exact exact_lt_share_add_one (weightSum_pos hi) l
  case below => exact share_lt_exact_add_one (weightSum_pos hi) l
  case zero =>
    rintro rfl l
    exact share_zero_amount w l

end Sys2Proof.Machine
end

section
/-! PROOFS. Specific energy (R132 to R134): the no-figure value, the clamp, the rounding of the quotient, and the statement
assembled from these. -/

namespace Sys2Proof.Machine

section SpecificEnergy
variable {e m minKg : Nat}

/-! ## The figure and its reserved values (R133, R134) -/

@[simp] theorem reachesMinimum_iff : reachesMinimum m minKg = true ↔ minKg * 10000 ≤ m := decide_eq_true_iff

theorem seOf_of_lt_minimum (h : m < minKg * 10000) : seOf e m minKg = Config.seNone :=
  if_neg (mt reachesMinimum_iff.mp (Nat.not_le.mpr h))

theorem seOf_of_minimum_le (h : minKg * 10000 ≤ m) : seOf e m minKg = min (seQuotient e m) Config.seClamp :=
  if_pos (reachesMinimum_iff.mpr h)

/-- A quotient equal to the clamp is its own figure, so the clamp replaces only what is above it. -/
theorem seOf_eq_ite_of_minimum_le (h : minKg * 10000 ≤ m) :
    seOf e m minKg = if Config.seClamp < seQuotient e m then Config.seClamp else seQuotient e m := by
  rw [seOf_of_minimum_le h, min_comm, min_def_lt]

/-! ## The rounding of the quotient (R132) -/

/-- The quotient is at most half a unit above the exact figure: at the half itself it is the integer above. -/
theorem two_mul_seQuotient_le (e m : Nat) : 2 * (seQuotient e m * m) ≤ 2 * (e * 100000) + m := by
  have hfloor : seQuotient e m * m ≤ e * 100000 + m / 2 := Nat.div_mul_le_self ..
  omega

/-- The quotient is less than half a unit below the exact figure. -/
theorem lt_two_mul_seQuotient (e : Nat) (hm : 0 < m) : 2 * (e * 100000) < 2 * (seQuotient e m * m) + m := by
  have hfloor : e * 100000 + m / 2 < seQuotient e m * m + m := Nat.lt_div_mul_add hm
  omega

end SpecificEnergy

/-- Settles O49: the figure by whether its mass reaches the minimum, and the rounding by its two half units; a minimum of at
least 1 kg keeps the division from a mass of 0. -/
theorem specificEnergyRoundsToTheNearest : Obligations.SpecificEnergyRoundsToTheNearest := by
  intro e m minKg hmin
  refine ⟨seOf_of_lt_minimum, fun hreached => ?figure⟩
  case figure =>
    have hm : 0 < m := by omega
    exact ⟨seOf_eq_ite_of_minimum_le hreached, two_mul_seQuotient_le e m, lt_two_mul_seQuotient e hm⟩

end Sys2Proof.Machine
end

section
/-! PROOFS. The ALERT line of a port (R175): when one unit holds it low, and which line a change of one unit can move. -/

namespace Sys2Proof.Machine

/-- A word other than 0 is one with some bit set. -/
theorem ne_zero_iff_exists_getLsbD {n : Nat} (x : BitVec n) : x ≠ 0#n ↔ ∃ k : Fin n, x.getLsbD k.val = true := by
  rw [Ne, BitVec.zero_iff_eq_false, not_forall]
  simp only [Bool.not_eq_false]
  exact ⟨fun ⟨i, hset⟩ => ⟨⟨i, BitVec.lt_of_getLsbD hset⟩, hset⟩, fun ⟨k, hset⟩ => ⟨k.val, hset⟩⟩

/-- ALERT turns on the notices and the mask of its unit bit by bit. -/
theorem PortUnit.alertLow_iff (u : PortUnit) :
    u.alertLow = true ↔ ∃ k : Fin 16, u.notices.getLsbD k.val = true ∧ u.mask.getLsbD k.val = true := by
  have hword : u.alertLow = true ↔ u.notices &&& u.mask ≠ 0#16 := bne_iff_ne
  simp only [hword, ne_zero_iff_exists_getLsbD, BitVec.getLsbD_and, Bool.and_eq_true]

/-- A change of one port's unit leaves every other unit as it was. -/
theorem State.onPort_ports_get_ne (s : State) {p q : Port} (h : q ≠ p) (f : PortUnit → PortUnit) :
    (s.onPort p f).ports.get q = s.ports.get q := by
  rw [State.onPort_ports, Ports.get_put_ne _ h.symm]

/-- Settles O5: the line is read off one unit, bit by bit, and a change of another port does not reach that unit. -/
theorem alertIsLowExactlyOnAMaskedSetNotice : Obligations.AlertIsLowExactlyOnAMaskedSetNotice :=
  ⟨PortUnit.alertLow_iff, fun _ _ f s hne => congrArg PortUnit.alertLow (s.onPort_ports_get_ne hne f)⟩

end Sys2Proof.Machine
end

section
/-! PROOFS. The notice commands (R173, R174): each reaches the sender's own notice unit from any port, and READ NOTICES has no
selector to be refused for. -/

namespace Sys2Proof.Machine

section NoticeCommands
variable {p : Port} {s : State}

/-- CLEAR NOTICES clears the bits its two bytes name (R173). -/
theorem exec_clearNotices_done (h : s.ctrl.acc ≠ .booting) (hi lo : Byte) :
    exec (.clearNotices ⟨p, [hi, lo]⟩) s =
      .next ((s.onPort p fun u => { u with notices := u.notices &&& ~~~(hi ++ lo) }).answered p .done (s.writeSent p 2)) :=
  congrArg Host.Outcome.next (writeTransaction_result (t := ⟨p, [hi, lo]⟩) h rfl rfl rfl)

/-- SET NOTICE MASK puts its two bytes in the mask's place (R174). -/
theorem exec_setNoticeMask_done (h : s.ctrl.acc ≠ .booting) (hi lo : Byte) :
    exec (.setNoticeMask ⟨p, [hi, lo]⟩) s =
      .next ((s.onPort p fun u => { u with mask := hi ++ lo }).answered p .done (s.writeSent p 2)) :=
  congrArg Host.Outcome.next (writeTransaction_result (t := ⟨p, [hi, lo]⟩) h rfl rfl rfl)

/-- READ NOTICES copies the unit of its sender, however many bytes follow its command byte (R166, R174). -/
theorem exec_readNotices_copied (h : s.ctrl.acc ≠ .booting) (bytes : List Byte) :
    exec (.readNotices ⟨p, bytes⟩) s = .next (s.copied p 0 bytes.length (noticesCopy (s.ports.get p))) := by
  have hlength : lengthSuits .readNotices (1 + bytes.length) = true := (lengthSuits_read rfl _).mpr (Nat.zero_le _)
  exact congrArg Host.Outcome.next (readTransaction_copied (t := ⟨p, bytes⟩) (.inl h) hlength rfl)

end NoticeCommands

/-- Settles O4: command by command, each answered by its owner since every port has the right to it. -/
theorem noticeCommandsActOnTheSendersUnit : Obligations.NoticeCommandsActOnTheSendersUnit := fun _ _ hacc =>
  ⟨exec_clearNotices_done hacc, exec_setNoticeMask_done hacc, exec_readNotices_copied hacc⟩

end Sys2Proof.Machine
end

section
/-! PROOFS. The checks a write command meets before its owner (R165): the table of rights row by row (R167), the lengths of
13.4, and the statement assembled from these and from the refusals of a write transaction. -/

namespace Sys2Proof.Machine

/-! ## The table of rights (R167) -/

/-- The write commands of Port M. -/
abbrev furnaceCommands : List Command := [.setFurnaceState, .setLag]

/-- The write commands of Port F. -/
abbrev lineCommands : List Command := [.lineTally, .setLineState]

/-- The write commands of Port E. -/
abbrev plantCommands : List Command :=
  [.writeStagedEntry, .commit, .discardStaged, .startAccounting, .stopAccounting, .closePeriod, .accountingReset,
    .clearLinkCounters, .injectWords, .saveImage, .loadImage, .setStoreProtect]

/-- Every command stands in some row of the table. -/
theorem command_mem_rightsTable (c : Command) :
    isWrite c = false ∨ c = .clearNotices ∨ c = .setNoticeMask ∨ c ∈ furnaceCommands ∨ c ∈ lineCommands ∨
      c ∈ plantCommands := by
  cases c <;> decide

/-- A read belongs to every port. -/
theorem hasRight_of_read {c : Command} (h : isWrite c = false) (p : Port) : hasRight p c = true := by
  cases c <;> cases h <;> rfl

theorem hasRight_furnaceCommand (p : Port) : ∀ c ∈ furnaceCommands, hasRight p c = (p == .m) := by
  simp [hasRight]

theorem hasRight_lineCommand (p : Port) : ∀ c ∈ lineCommands, hasRight p c = (p == .f) := by
  simp [hasRight]

theorem hasRight_plantCommand (p : Port) : ∀ c ∈ plantCommands, hasRight p c = (p == .e) := by
  simp [hasRight]

/-- The rights of a port are the rows of the table that name it. -/
theorem hasRight_iff (p : Port) (c : Command) :
    hasRight p c = true ↔
      isWrite c = false ∨ c = .clearNotices ∨ c = .setNoticeMask ∨ (p = .m ∧ c ∈ furnaceCommands) ∨
        (p = .f ∧ c ∈ lineCommands) ∨ (p = .e ∧ c ∈ plantCommands) := by
  constructor
  · intro hright
    obtain hread | hclear | hmask | hc | hc | hc := command_mem_rightsTable c
    · exact .inl hread
    · exact .inr (.inl hclear)
    · exact .inr (.inr (.inl hmask))
    · have hp : p = .m := beq_iff_eq.mp (hasRight_furnaceCommand p c hc ▸ hright)
      exact .inr (.inr (.inr (.inl ⟨hp, hc⟩)))
    · have hp : p = .f := beq_iff_eq.mp (hasRight_lineCommand p c hc ▸ hright)
      exact .inr (.inr (.inr (.inr (.inl ⟨hp, hc⟩))))
    · have hp : p = .e := beq_iff_eq.mp (hasRight_plantCommand p c hc ▸ hright)
      exact .inr (.inr (.inr (.inr (.inr ⟨hp, hc⟩))))
  · rintro (hread | rfl | rfl | ⟨rfl, hc⟩ | ⟨rfl, hc⟩ | ⟨rfl, hc⟩)
    · exact hasRight_of_read hread p
    · rfl
    · rfl
    · exact hasRight_furnaceCommand _ c hc
    · exact hasRight_lineCommand _ c hc
    · exact hasRight_plantCommand _ c hc

/-! ## The lengths of 13.4 -/

/-- INJECT WORDS carries a link and 1 to 32 words of three bytes. -/
theorem lengthSuits_injectWords_iff (n : Nat) :
    lengthSuits .injectWords n = true ↔ ∃ w, 1 ≤ w ∧ w ≤ 32 ∧ n = 2 + 3 * w := by
  simp only [lengthSuits, decide_eq_true_eq]
  constructor
  · rintro ⟨hlow, hhigh, hmod⟩
    exact ⟨n / 3, by omega⟩
  · rintro ⟨w, hlow, hhigh, rfl⟩
    omega

/-! ## What a write command runs -/

/-- A write command of a port is a write transaction with some owner. -/
theorem exec_instrOfCommand_write {c : Command} (h : isWrite c = true) (t : Transfer) (wpN : Bool) (s : State) :
    ∃ o : Owner, exec (instrOfCommand c t wpN) s = .next (writeTransaction c t o s) := by
  cases c <;> cases h <;> exact ⟨_, rfl⟩

/-- Settles O7: the tables by their rows, and each refusal as that of the write transaction the command runs. -/
theorem writesRefusedBeforeTheirOwner : Obligations.WritesRefusedBeforeTheirOwner := by
  refine ⟨hasRight_iff, ?lengths, lengthSuits_injectWords_iff, fun c t wpN s hwrite => ?refusals⟩
  case lengths =>
    intro x hx n
    fin_cases hx <;> exact beq_iff_eq
  case refusals =>
    obtain ⟨o, hexec⟩ := exec_instrOfCommand_write hwrite t wpN s
    rw [hexec]
    exact ⟨fun hbooting => congrArg Host.Outcome.next (writeTransaction_booting hbooting),
      fun hacc hright => congrArg Host.Outcome.next (writeTransaction_rights hacc hright),
      fun hacc hright hlength => congrArg Host.Outcome.next (writeTransaction_form hacc hright hlength)⟩

end Sys2Proof.Machine
end

section
/-! PROOFS. The lengths of the copies the read commands make (R166, 13.6): of multi-byte values, of entry images, and of every
copy, and the statement assembled from these. -/

namespace Sys2Proof.Machine

/-! ## The lengths of values, images and views -/

@[simp] theorem length_toBE (n x : Nat) : (toBE n x).length = n := by
  induction n with
  | zero => rfl
  | succ n ih => simp [toBE, ih]

@[simp] theorem length_energyBytes (v : View) (ks : List Kj) : (energyBytes v ks).length = 7 * ks.length := by
  simp [energyBytes, List.length_flatMap, Nat.mul_comm]

@[simp] theorem length_padTo (n : Nat) (bs : List Byte) : (padTo n bs).length = max n bs.length := by
  simp only [padTo, List.length_append, List.length_replicate]
  omega

@[simp] theorem length_imageBytesAt (m : List Host.Cell) (a n : Nat) : (Image.bytes m a n).length = n := by
  simp [Image.bytes]

@[simp] theorem length_counterBytes (w : Nat) (c : CounterSet) : (counterBytes w c).length = 5 * w := by
  simp only [counterBytes, List.length_append, length_toBE]
  omega

/-- The field bytes of an entry of each table (13.5). -/
def fieldBytes : Nat → Nat
  | 0 => 7
  | 1 => 3
  | 2 => 12
  | 3 => 3
  | 4 => 10
  | 5 => 2
  | _ => 32

theorem length_globalImage (g : GlobalEntry) : (globalImage g).length = 7 := by simp [globalImage]
theorem length_linkImage (l : LinkEntry) : (linkImage l).length = 3 := by simp [linkImage]
theorem length_pointImage (p : PointEntry) : (pointImage p).length = 12 := by simp [pointImage]
theorem length_furnaceImage (f : FurnaceEntry) : (furnaceImage f).length = 3 := by simp [furnaceImage]
theorem length_lineImage (l : LineEntry) : (lineImage l).length = 10 := by simp [lineImage, l.weights.len]
theorem length_poolImage (p : PoolEntry) : (poolImage p).length = 2 := by simp [poolImage]
theorem length_curveImage (c : CurveEntry) : (curveImage c).length = 32 := by
  simp [curveImage, List.length_flatMap, c.gains.len]

/-- The image of an entry has the field bytes of its table. -/
theorem length_entryImage {m : PlantMap} {table index : Nat} {image : List Byte}
    (h : entryImage m table index = some image) : image.length = fieldBytes table := by
  unfold entryImage at h
  split at h <;> first | (obtain ⟨i, -, rfl⟩ := Option.map_eq_some_iff.mp h) | cases h
  · exact length_globalImage _
  · exact length_linkImage _
  · exact length_pointImage _
  · exact length_furnaceImage _
  · exact length_lineImage _
  · exact length_poolImage _
  · exact length_curveImage _

theorem fieldBytes_le (table : Nat) : fieldBytes table ≤ 32 := by
  unfold fieldBytes
  split <;> decide

/-! ## The length of each copy -/

theorem length_noticesCopy (u : PortUnit) : (noticesCopy u).length = 7 := by simp [noticesCopy]

theorem length_linkStatusCopy {s : State} {l : Nat} {c : List Byte} (h : linkStatusCopy s l = .ok c) : c.length ≤ 64 := by
  unfold linkStatusCopy at h
  split at h
  · cases h
    simp [linkBytes]
  · cases h

theorem length_entryCopy {m : PlantMap} {table index : Nat} {c : List Byte} (h : entryCopy m table index = .ok c) :
    c.length ≤ 64 := by
  unfold entryCopy at h
  split at h
  · cases h
  · cases h
    cases he : entryImage m table index with
    | none => simp
    | some image =>
      have hlength := length_entryImage he
      have hfields := fieldBytes_le table
      simp only [Option.getD_some, List.length_cons, length_padTo]
      omega

theorem length_pointStateCopy {s : State} {kind index : Nat} {c : List Byte} (h : pointStateCopy s kind index = .ok c) :
    c.length ≤ 64 := by
  unfold pointStateCopy at h
  split at h
  · split at h <;> cases h
    simp [pointBytes]
  · split at h <;> cases h
    simp [lineBytes]
  · cases h

theorem length_queueCopy {s : State} {furnace selector : Nat} {c : List Byte}
    (h : queueCopy s furnace selector = .ok c) : c.length ≤ 64 := by
  unfold queueCopy at h
  split at h
  · cases h
  · split at h
    · cases h
      simp [queueBytes]
    · split at h
      · cases h
      · split at h <;> cases h
        simp [recordBytes]

theorem length_resultHeaderBytes (t : Option ResultTable) : (resultHeaderBytes t).length = 13 := by
  cases t <;> simp [resultHeaderBytes]

/-- An entry of a result table: its own bytes or those of an absent one. -/
theorem length_entryResult {α : Type} (n : BitVec 32) {len : Nat} {bytes : α → List Byte} (hlen : 4 ≤ len)
    (h : ∀ x, (bytes x).length + 5 = len) (x : Option α) : (entryResult n len bytes x).length = len := by
  cases x with
  | none => simp [entryResult, absentBytes, hlen]
  | some x =>
    have hx := h x
    simp only [entryResult, List.length_append, length_toBE, List.length_singleton]
    omega

theorem length_resultPart (t : ResultTable) (k : ResultKind) (index : Nat) (v : View) :
    (resultPart t k index v).length ≤ 64 := by
  cases k
  case header => simp [resultPart, length_resultHeaderBytes]
  case point =>
    rw [resultPart, length_entryResult _ (by decide) fun x => by simp [pointResultBytes]]
    decide
  case line =>
    rw [resultPart, length_entryResult _ (by decide) fun x => by cases v <;> simp [lineResultBytes]]
    decide
  case furnace =>
    rw [resultPart, length_entryResult _ (by decide) fun x => by cases v <;> simp [furnaceResultBytes]]
    decide
  case pool =>
    rw [resultPart, length_entryResult _ (by decide) fun x => by simp [poolResultBytes]]
    decide
  case plant => cases v <;> simp [resultPart, plantResultBytes]

theorem length_resultCopy {s : State} {kind index : Nat} {view : Byte} {c : List Byte}
    (h : resultCopy s kind index view = .ok c) : c.length ≤ 64 := by
  unfold resultCopy at h
  repeat' split at h
  all_goals cases h
  · exact length_resultPart ..
  · simp [length_resultHeaderBytes]

theorem length_bankPart (s : State) (b : Bank) (k : BankKind) (index : Nat) (v : View) (halfB : Bool) :
    (bankPart s b k index v halfB).length ≤ 50 := by
  cases k
  case header => simp [bankPart]
  case furnace =>
    simp only [bankPart]
    split
    · cases halfB <;> simp [furnaceRecordBytes]
    · simp
  case line =>
    simp only [bankPart]
    split
    · cases halfB <;> simp [lineRecordBytes]
    · simp
  case pool =>
    simp only [bankPart]
    split <;> simp
  case plant => simp [bankPart, plantRecordBytes]

theorem length_bankCopy {s : State} {role kind index : Nat} {view : Byte} {c : List Byte}
    (h : bankCopy s role kind index view = .ok c) : c.length ≤ 64 := by
  unfold bankCopy at h
  repeat' split at h
  all_goals cases h
  rename_i k _ _ _ v halfB _ _ _ i _
  have hpart := length_bankPart s (s.banks.get i) k index v halfB
  simp only [bankPrefix, List.length_append, List.length_cons, List.length_nil, length_toBE]
  omega

theorem length_storeCopy {s : State} {wpN : Bool} {selector : Nat} {c : List Byte}
    (h : storeCopy s wpN selector = .ok c) : c.length ≤ 64 := by
  unfold storeCopy at h
  repeat' split at h
  all_goals cases h
  · simp [storeStatusBytes]
  · simp

/-- Settles O16: copy by copy, each by its own length. -/
theorem everyCopyFitsTheBuffer : Obligations.EveryCopyFitsTheBuffer := fun s =>
  ⟨fun p => ⟨by simp [idCopy], by simp [length_noticesCopy]⟩, fun _ _ => length_linkStatusCopy,
    fun _ _ _ => length_entryCopy, fun _ _ _ => length_entryCopy, fun _ _ _ => length_pointStateCopy,
    fun _ _ _ => length_queueCopy, fun _ _ _ _ => length_resultCopy, fun _ _ _ _ _ => length_bankCopy,
    fun _ _ _ => length_storeCopy⟩

end Sys2Proof.Machine
end

section
/-! PROOFS. What a step can do, said once: the changes a command is made of, and the induction that carries what every change
keeps over a whole step. -/

namespace Sys2Proof.Machine

/-! ## A port between commands -/

/-- A port between two commands: idle, or in a READ STATUS with as many bytes received as sent; its buffer holds 64 bytes (R160,
R162, R166). -/
structure PortUnit.Settled (u : PortUnit) : Prop where
  decoder : u.decoder = none ∨ (u.decoder = some ⟨0x01, u.sent.length, []⟩ ∧ u.sent ≠ [])
  buffer  : u.buffer.length = 64

theorem State.portLaw_iff {s : State} : s.portLaw ↔ ∀ p, (s.ports.get p).Settled :=
  ⟨fun h p => ⟨(h p).1, (h p).2⟩, fun h p => ⟨(h p).decoder, (h p).buffer⟩⟩

/-- The end of a transaction settles a port whose buffer is whole. -/
theorem PortUnit.settled_close {u : PortUnit} (h : u.buffer.length = 64) (sent : List Byte) : (u.close sent).Settled :=
  ⟨.inl rfl, h⟩

@[simp] theorem PortUnit.record_buffer (a : Answer) (u : PortUnit) : (u.record a).buffer = u.buffer := by
  cases a <;> rfl

/-- An answer recorded at the end of a transaction leaves the port settled. -/
theorem PortUnit.settled_answered {u : PortUnit} (h : u.Settled) (a : Answer) (sent : List Byte) :
    ((u.record a).close sent).Settled :=
  PortUnit.settled_close ((congrArg List.length (u.record_buffer a)).trans h.buffer) sent

theorem length_bufferOf {copy : List Byte} (h : copy.length ≤ 64) : (bufferOf copy).length = 64 := by
  simp only [bufferOf, List.length_append, List.length_replicate, Config.bufferSize]
  omega

/-- A read leaves 64 bytes in the buffer, whatever its owner answers (R166). -/
theorem PortUnit.length_afterRead_buffer {c : Copy} (h : ∀ bytes, c = .ok bytes → bytes.length ≤ 64) (u : PortUnit) :
    (u.afterRead c).buffer.length = 64 := by
  cases c with
  | ok bytes => exact length_bufferOf (h bytes rfl)
  | error a => rw [PortUnit.afterRead, PortUnit.record_buffer]; exact length_bufferOf (Nat.zero_le 64)

/-- Further bytes of a READ STATUS settle the port again (R162). -/
theorem PortUnit.settled_goOn {u : PortUnit} (h : u.Settled) (b : Byte) (n : Nat) (ends : Bool) :
    (u.goOn b n ends).Settled := by
  unfold PortUnit.goOn
  split
  case h_2 => exact h
  case h_1 x hx =>
    split
    case isFalse => exact h
    case isTrue =>
      refine ⟨?_, h.buffer⟩
      obtain hnone | ⟨hsome, hsent⟩ := h.decoder
      · cases hx.symm.trans hnone
      · cases hx.symm.trans hsome
        cases ends
        · exact .inr ⟨by simp, by simp [hsent]⟩
        · exact .inl rfl

/-- A stretch of a READ STATUS leaves its port settled (R162). -/
theorem PortUnit.settled_readStatus {u : PortUnit} (h : u.Settled) (b : Byte) (n : Nat) (part : Stretch) :
    (u.readStatus b n part).Settled := by
  cases part
  case whole => exact PortUnit.settled_close h.buffer _
  case first => exact ⟨.inr ⟨by simp [PortUnit.readStatus, commandCode], by simp [PortUnit.readStatus]⟩, h.buffer⟩
  case further => exact PortUnit.settled_goOn h b n false
  case last => exact PortUnit.settled_goOn h b n true

/-! ## The changes a command is made of -/

/-- One change of the state. `hold` is set inside a run of injected words, where a closure that would apply a pending commit leaves
its set WAITING (log entry 14). Each constructor carries what its place in a command guarantees. -/
inductive Change : Bool → State → State → Prop
  /-- The queue of waiting commands and the count of free values. -/
  | outside {hold s} (n : Nat) (q : List Instr) : Change hold s { s with freeIdx := n, pending := q }
  | port {hold s} (p : Port) (g : PortUnit → PortUnit) (h : ∀ u, u.Settled → (g u).Settled) : Change hold s (s.onPort p g)
  | notify {hold s} (n : Notice) : Change hold s (s.notify n)
  | receiver {hold s} (l : Fin 8) (rx : Receiver) : Change hold s (s.putLink l { s.links.get l with rx := rx })
  | errorEvent {hold s} (l : Fin 8) (e : ErrorKind) (h : (s.plant.active.links.get l).mode ≠ .off) :
      Change hold s (s.errorEvent l e)
  | clearLink {hold s} (l : Fin 8) : Change hold s (s.clearLink l)
  /-- The deliveries, the tallies and the mark of a slot set. -/
  | slots {hold s} (i : Fin 2) (links : Tab 8 (Option Delivery)) (lines : Tab 12 (Option Tally)) (mark : Option CloseCause) :
      Change hold s (s.putSet i { s.ctrl.sets.get i with links := links, lines := lines, mark := mark })
  /-- The interval numbers, the close latch and the line states. -/
  | calendar {hold s} (current last : BitVec 32) (latch : Bool) (lines : Tab 12 LineState) :
      Change hold s { s with
        ctrl := { s.ctrl with current := current, lastClosed := last, closeLatch := latch, lineStates := lines } }
  /-- A furnace's state and lags, as Port M gives them. -/
  | furnace {hold s} (f : Fin 4) (st : FurnaceState) (lag : Nat) (pending : Option Nat)
      (hlag : lag = (s.furnaces.get f).lag ∨ lag ≤ 63)
      (hpending : pending = (s.furnaces.get f).pendingLag ∨ ∀ l, pending = some l → l ≤ 63) :
      Change hold s (s.putFurnace f ⟨st, (s.furnaces.get f).queue, lag, pending⟩)
  | staged {hold s} (m : PlantMap) (h : s.plant.staged.inRange → s.plant.active.inRange → m.inRange) :
      Change hold s (s.setStaged m)
  | plan {hold s} : Change hold s { s with plant := { s.plant with commitPending := true } }
  | apply {s} (h : s.ctrl.acc ≠ .booting) : Change false s s.applyMap
  | close {hold s} (i : Fin 2) (h : s.ctrl.setWith .opened = some i) : Change hold s (s.closeWindow hold i)
  | becomeReady {s} (h : s.ctrl.acc = .unconfigured) : Change false s (s.setAcc .ready)
  | run {s} (h : s.ctrl.acc = .ready) : Change false s (s.setAcc .running)
  | unsetSources {hold s} : Change hold s { s with sources := s.sources.allUnset }
  | mark {s} (pmark : Bool) (hacc : s.ctrl.acc = .running) (hbusy : s.busy = false) : Change false s (s.acceptMark pmark)
  /-- A STOP that closes the open window. -/
  | stopOpen {s} (i : Fin 2) (hacc : s.ctrl.acc = .running) (h : s.ctrl.setWith .opened = some i) :
      Change false s ((s.setAcc .stopping).closeWindow false i)
  /-- A STOP that leaves the last interval to a computation. -/
  | stopLater {s} (hacc : s.ctrl.acc = .running) (hopened : s.ctrl.setWith .opened = none)
      (h : s.ctrl.setWith .waiting ≠ none ∨ s.ctrl.setWith .computing ≠ none) : Change false s (s.setAcc .stopping)
  | swap {s} (c : CloseCause) (h : s.ctrl.setWith .computing = none ∨ s.engine.phase = .banked) : Change false s (s.swap c)
  /-- A STOP that finds no interval returns to READY. -/
  | stopNow {s} (hacc : s.ctrl.acc = .running) (hopened : s.ctrl.setWith .opened = none)
      (hwaiting : s.ctrl.setWith .waiting = none) (hcomputing : s.ctrl.setWith .computing = none) :
      Change false s s.returnToReady
  | accountingReset {s} (h : s.ctrl.acc ≠ .booting) : Change false s s.accountingReset
  | store {hold s} (st : Store) (h : Image.wf s.store.image → Image.wf st.image) : Change hold s (s.setStore st)
  | endBooting {s} (h : s.ctrl.acc = .booting) : Change false s s.endBooting
  | pinReset {s} : Change false s { State.reset with
      store := .afterReset s.store.image s.store.lock s.store.freeze, freeIdx := s.freeIdx, pending := s.pending }
  | reconcile {s} (i : Fin 2) (hset : s.ctrl.setWith .computing = some i) (hphase : s.engine.phase = .started) :
      Change false s (s.reconcile i)
  | convert {s} (i : Fin 2) (hset : s.ctrl.setWith .computing = some i) (hphase : s.engine.phase = .reconciled) :
      Change false s (s.convertStage i)
  | queue {s} (i : Fin 2) (hset : s.ctrl.setWith .computing = some i) (hphase : s.engine.phase = .converted) :
      Change false s (s.queueStage i)
  | furnaceSplit {s} (i : Fin 2) (hset : s.ctrl.setWith .computing = some i) (hphase : s.engine.phase = .queued) :
      Change false s (s.furnaceSplitStage i)
  | poolSplit {s} (i : Fin 2) (hset : s.ctrl.setWith .computing = some i) (hphase : s.engine.phase = .furnaceSplit) :
      Change false s (s.poolSplitStage i)
  | totals {s} (i : Fin 2) (hset : s.ctrl.setWith .computing = some i) (hphase : s.engine.phase = .poolSplit) :
      Change false s (s.totalsStage i)
  /-- A completion up to the swap: published, added to the ACTIVE bank, notices set. -/
  | bank {s} (i : Fin 2) (mark : Option CloseCause) (t : ResultTable) (hset : s.ctrl.setWith .computing = some i)
      (hphase : s.engine.phase = .totalled) (hworking : s.working = some t) :
      Change false s { s.publish mark t with engine := { (s.publish mark t).engine with phase := .banked } }
  /-- What follows the swap. -/
  | finish {s} (i : Fin 2) (hset : s.ctrl.setWith .computing = some i) (hphase : s.engine.phase = .banked) :
      Change false s (s.afterCompletion i)

/-! ## The induction over a step -/

/-- A computation that starts with no commit due leaves both maps. -/
theorem State.startComputation_plant_of_not_due {s : State} (h : s.commitDue = false) (i : Fin 2) :
    (s.startComputation i).plant = s.plant := by
  unfold State.startComputation
  dsimp only
  rw [h]
  split <;> rfl

/-- A closure judged inside a run of injected words applies no commit, so both maps stand (log entry 14). -/
theorem State.judgeClosure_held_plant (s : State) : (s.judgeClosure true).plant = s.plant := by
  unfold State.judgeClosure
  split
  · split
    · unfold State.closeWindow
      dsimp only
      split
      · rfl
      · rename_i hstarts
        rw [Bool.true_and, Bool.or_eq_true, not_or, Bool.not_eq_true] at hstarts
        exact State.startComputation_plant_of_not_due (Bool.not_eq_true _ ▸ hstarts.2) _
    · rfl
  · rfl

theorem State.injectWord_plant (s : State) (l : Fin 8) (w : LinkWord) : (s.injectWord l w).plant = s.plant :=
  (State.judgeClosure_held_plant _).trans (State.wordArrives_plant ..)

/-- What every change keeps. `P true` is what holds inside a run of injected words: it is entered from `P false`, and left by the
start of a computation that waits. -/
structure KeptByChanges (P : Bool → State → Prop) : Prop where
  change : ∀ {hold s t}, Change hold s t → P hold s → P hold t
  enter  : ∀ {s}, P false s → P true s
  leave  : ∀ {s}, P true s → P false s.startWaiting

namespace KeptByChanges

variable {P : Bool → State → Prop} (k : KeptByChanges P) {s : State} {hold : Bool}
include k

omit k in
theorem fold {α : Type} {f : State → α → State} (h : ∀ s a, P hold s → P hold (f s a)) (l : List α) (hs : P hold s) :
    P hold (l.foldl f s) := foldl_preserves h l hs

theorem notifyIf (b : Bool) (n : Notice) (hs : P hold s) : P hold (s.notifyIf b n) := by
  cases b
  · exact hs
  · exact k.change (.notify n) hs

theorem judgeClosure (hs : P hold s) : P hold (s.judgeClosure hold) := by
  unfold State.judgeClosure
  split
  · rename_i i hi
    split
    · exact k.change (.close i hi) hs
    · exact hs
  · exact hs

/-! ### Links -/

theorem deliver (l : Fin 8) (d : Delivery) (hmode : (s.plant.active.links.get l).mode ≠ .off) (hs : P hold s) :
    P hold (s.deliver l d) := by
  unfold State.deliver
  split
  · split
    · exact k.change (.slots _ _ _ _) hs
    · exact k.change (.errorEvent l .timing hmode) hs
    · exact k.change (.errorEvent l .timing hmode) hs
  · exact hs

theorem wordArrives (l : Fin 8) (w : LinkWord) (hmode : (s.plant.active.links.get l).mode ≠ .off) (hs : P hold s) :
    P hold (s.wordArrives l w) := by
  unfold State.wordArrives
  obtain ⟨hevents, hmode'⟩ := fold (P := fun hold s => P hold s ∧ (s.plant.active.links.get l).mode ≠ .off)
    (fun s e h => ⟨k.change (.errorEvent l e h.2) h.1, (congrArg (fun m => (m.active.links.get l).mode ≠ .off)
      (State.errorEvent_plant ..)).mpr h.2⟩)
    (receiveWord (s.plant.active.links.get l) w (s.links.get l).rx).events
    ⟨k.change (.receiver l (receiveWord (s.plant.active.links.get l) w (s.links.get l).rx).rx) hs, hmode⟩
  dsimp only
  split
  · split
    · exact hevents
    · exact k.deliver l _ hmode' hevents
  · exact hevents

theorem wireWord (l : Fin 8) (w : LinkWord) (hs : P false s) : P false (s.wireWord l w) := by
  unfold State.wireWord
  split
  · rename_i hlive
    exact k.judgeClosure (k.wordArrives l w (by simp [hlive]) hs)
  · exact hs

/-- A run of injected words applies no commit before its end, so the link's mode stands throughout (log entry 14). -/
theorem injectRun (l : Fin 8) (ws : List LinkWord) (hmode : (s.plant.active.links.get l).mode ≠ .off) (hs : P false s) :
    P false (s.injectRun l ws) :=
  k.leave (fold (P := fun hold s => P hold s ∧ (s.plant.active.links.get l).mode ≠ .off)
    (fun s w h => ⟨k.judgeClosure (k.wordArrives l w h.2 h.1), (congrArg (fun m => (m.active.links.get l).mode ≠ .off)
      (s.injectWord_plant l w)).mpr h.2⟩) ws ⟨k.enter hs, hmode⟩).1

theorem clearOne (l : Fin 8) (hs : P false s) : P false (s.clearOne l) := k.judgeClosure (k.change (.clearLink l) hs)

/-! ### Stops and completions -/

theorem setLatch (b : Bool) (hs : P hold s) : P hold (s.setLatch b) := k.change (.calendar _ _ b _) hs

theorem markStop (i : Fin 2) (hs : P hold s) : P hold (s.markStop i) := k.change (.slots i _ _ _) hs

theorem swapIfMarked (mark : Option CloseCause) (hphase : s.engine.phase = .banked) (hs : P false s) :
    P false (s.swapIfMarked mark) := by
  cases mark with
  | none => exact hs
  | some c => exact k.change (.swap c (.inr hphase)) hs

theorem finishCompletion (i : Fin 2) (hset : s.ctrl.setWith .computing = some i) (hphase : s.engine.phase = .banked)
    (hs : P false s) : P false (s.finishCompletion i) := by
  refine k.change (.finish i ?_ ?_) (k.swapIfMarked (s.ctrl.sets.get i).mark hphase hs)
  · rw [State.swapIfMarked_ctrl]; exact hset
  · rw [State.swapIfMarked_engine]; exact hphase

end KeptByChanges

/-- A completion is its part up to the swap, taken as one change, and the rest: the engine is cleared in either case. -/
theorem State.finishCompletion_banked (s : State) (i : Fin 2) :
    ({ s with engine := { s.engine with phase := .banked } } : State).finishCompletion i = s.finishCompletion i := by
  unfold State.finishCompletion State.swapIfMarked
  dsimp only
  split <;> rfl

/-- A mark put into a set leaves every set's status. -/
theorem Controller.setWith_congr {c c' : Controller} (h : ∀ i, (c'.sets.get i).status = (c.sets.get i).status)
    (st : SetStatus) : c'.setWith st = c.setWith st := by
  simp only [Controller.setWith, h]

/-- A set marked by a STOP leaves every set's status. -/
theorem State.markStop_setWith (s : State) (i : Fin 2) (st : SetStatus) :
    (s.markStop i).ctrl.setWith st = s.ctrl.setWith st := by
  refine Controller.setWith_congr (fun j => ?_) st
  simp only [State.markStop, State.putSet_ctrl, Tab.get_set]
  split
  · subst_vars; rfl
  · rfl

namespace KeptByChanges

variable {P : Bool → State → Prop} (k : KeptByChanges P) {s : State}
include k

theorem complete (i : Fin 2) (hset : s.ctrl.setWith .computing = some i) (hphase : s.engine.phase = .totalled)
    (hs : P false s) : P false (s.complete i) := by
  unfold State.complete
  split
  · rename_i t ht
    rw [← State.finishCompletion_banked]
    refine k.finishCompletion i ?_ rfl (k.change (.bank i (s.ctrl.sets.get i).mark t hset hphase ht) hs)
    simpa using hset
  · exact hs

theorem bankInterval (i : Fin 2) (hset : s.ctrl.setWith .computing = some i) (hphase : s.engine.phase = .totalled)
    (hs : P false s) : P false (s.bankInterval i) := by
  unfold State.bankInterval
  split
  · rename_i t c ht hmark
    exact k.change (.bank i (some c) t hset hphase ht) hs
  · exact hs

omit k in
theorem atStage {before : Phase} {run : Fin 2 → State → State}
    (h : ∀ i, s.ctrl.setWith .computing = some i → s.engine.phase = before → P false (run i s)) (hs : P false s) :
    P false (s.atStage before run) := by
  unfold State.atStage
  split
  · rename_i i hi
    split
    · rename_i hphase; exact h i hi hphase
    · exact hs
  · exact hs

theorem stopRun (hacc : s.ctrl.acc = .running) (hs : P false s) : P false s.stopRun := by
  have hlatch := k.setLatch false hs
  have hctrl : ∀ st, (s.setLatch false).ctrl.setWith st = s.ctrl.setWith st := fun _ => rfl
  unfold State.stopRun
  dsimp only
  split
  · rename_i i hi
    exact k.change (.stopOpen i hacc ((State.markStop_setWith ..).trans hi)) (k.markStop i hlatch)
  · rename_i hopened
    split
    · rename_i i hi
      refine k.change (.stopLater hacc ((State.markStop_setWith ..).trans hopened) (.inl ?_)) (k.markStop i hlatch)
      rw [State.markStop_setWith, hi]
      exact Option.some_ne_none i
    · rename_i hwaiting
      split
      · rename_i i hi
        refine k.change (.stopLater hacc ((State.markStop_setWith ..).trans hopened) (.inr ?_)) (k.markStop i hlatch)
        rw [State.markStop_setWith, hi]
        exact Option.some_ne_none i
      · rename_i hcomputing
        unfold State.stopAtOnce
        split
        · exact k.change (.stopNow hacc hopened hwaiting hcomputing) hlatch
        · refine k.change (.stopNow ?_ ?_ ?_ ?_) (k.change (.swap .stop (.inl hcomputing)) hlatch)
          all_goals rw [State.swap_ctrl]
          · exact hacc
          · exact hopened
          · exact hwaiting
          · exact hcomputing

/-! ### Transactions -/

theorem write {c : Command} {t : Transfer} {o : Owner} (hs : P false s)
    (ho : s.ctrl.acc ≠ .booting → P false (o (t.bytes.take 97) s).1) : P false (writeTransaction c t o s) :=
  writeTransaction_preserves hs ho fun _ _ _ h =>
    k.change (.port _ _ fun _ hu => PortUnit.settled_answered hu _ _) h

theorem read {c : Command} {t : Transfer} {b : Bool} {f : List Byte → State → Copy} (hs : P false s)
    (hf : ∀ bytes, f t.bytes s = .ok bytes → bytes.length ≤ 64) : P false (readTransaction c t b f s) := by
  unfold readTransaction
  dsimp only
  split
  · refine k.change (.port _ _ fun u _ => PortUnit.settled_close (PortUnit.length_afterRead_buffer (fun bytes h => ?_) u) _) hs
    unfold judgeRead at h
    split at h
    · cases h
    · exact hf bytes h
  · exact k.change (.port _ _ fun _ hu => PortUnit.settled_answered hu _ _) hs

/-! ### The owners of the write commands -/

theorem clearNoticesAt (p : Port) (b : List Byte) (hs : P false s) : P false (Machine.clearNoticesAt p b s).1 :=
  k.change (.port p (fun u => { u with notices := u.notices &&& ~~~ noticeArg b }) fun _ hu => ⟨hu.decoder, hu.buffer⟩) hs

theorem setNoticeMaskAt (p : Port) (b : List Byte) (hs : P false s) : P false (Machine.setNoticeMaskAt p b s).1 :=
  k.change (.port p (fun u => { u with mask := noticeArg b }) fun _ hu => ⟨hu.decoder, hu.buffer⟩) hs

theorem setFurnaceStateAt (b : List Byte) (hs : P false s) : P false (Machine.setFurnaceStateAt b s).1 := by
  unfold Machine.setFurnaceStateAt
  split
  · exact hs
  · split
    · exact hs
    · exact k.change (.furnace _ _ _ _ (.inl rfl) (.inl rfl)) hs

theorem setLagAt (b : List Byte) (hs : P false s) : P false (Machine.setLagAt b s).1 := by
  unfold Machine.setLagAt
  split
  · exact hs
  · split
    · exact hs
    · rename_i hlag
      have hle : natAt b 1 ≤ 63 := Nat.le_of_not_lt hlag
      unfold State.giveLag
      split
      · exact k.change (.furnace _ _ _ _ (.inl rfl) (.inr fun l h => Option.some_inj.mp h ▸ hle)) hs
      · exact k.change (.furnace _ _ _ _ (.inr hle) (.inr fun l h => nomatch h)) hs

theorem lineTallyAt (b : List Byte) (hs : P false s) : P false (Machine.lineTallyAt b s).1 := by
  unfold Machine.lineTallyAt
  dsimp only
  split
  · exact hs
  · split
    · exact hs
    · split
      · exact hs
      · split
        · exact hs
        · exact hs
        · exact k.judgeClosure (k.change (.slots _ _ _ _) hs)

theorem setLineStateAt (b : List Byte) (hs : P false s) : P false (Machine.setLineStateAt b s).1 := by
  unfold Machine.setLineStateAt
  split
  · exact hs
  · split
    · exact hs
    · exact k.judgeClosure (k.change (.calendar _ _ _ _) hs)

theorem takeCommit (hs : P false s) : P false s.takeCommit.1 := by
  have happly (h : s.ctrl.acc ≠ .booting) : P false s.applyMap := k.change (.apply h) hs
  unfold State.takeCommit
  split <;> dsimp only
  · rename_i hacc
    have hready := k.change (.becomeReady (s.applyMap_drops.acc.trans hacc)) (happly (by simp [hacc]))
    exact k.judgeClosure hready
  · rename_i hacc
    exact k.judgeClosure (happly (by simp [hacc]))
  · exact k.change .plan hs
  · exact k.change .plan hs
  · exact hs

theorem commitStaged (b : List Byte) (hs : P false s) : P false (Machine.commitStaged b s).1 := by
  unfold Machine.commitStaged
  cases s.plant.commitPending with
  | true => exact hs
  | false =>
    cases s.store.loading with
    | true => exact hs
    | false =>
      cases mapCheck s.plant.staged with
      | some d => exact hs
      | none => exact k.takeCommit hs

theorem startAccountingAt (b : List Byte) (hs : P false s) : P false (Machine.startAccountingAt b s).1 := by
  unfold Machine.startAccountingAt
  split
  · rename_i hacc
    have hnumbers := k.change (hold := false) (.calendar (BitVec.ofNat 32 (beAt b 0 4))
      (BitVec.ofNat 32 (beAt b 0 4) - 1) s.ctrl.closeLatch s.ctrl.lineStates) hs
    have hrunning := k.change (.run (by exact hacc)) hnumbers
    have hunset := k.change .unsetSources hrunning
    exact hunset
  · exact hs

theorem stopAccountingAt (b : List Byte) (hs : P false s) : P false (Machine.stopAccountingAt b s).1 := by
  unfold Machine.stopAccountingAt
  split
  · rename_i hacc; exact k.stopRun hacc hs
  · exact hs

theorem closePeriodAt (b : List Byte) (hs : P false s) : P false (Machine.closePeriodAt b s).1 := by
  unfold Machine.closePeriodAt
  split
  · exact k.setLatch true hs
  · exact hs

theorem clearLinkCountersAt (b : List Byte) (hs : P false s) : P false (Machine.clearLinkCountersAt b s).1 := by
  unfold Machine.clearLinkCountersAt
  split
  · exact hs
  · exact fold (fun _ l h => k.clearOne l h) _ hs

theorem injectWordsAt (b : List Byte) (hs : P false s) : P false (Machine.injectWordsAt b s).1 := by
  unfold Machine.injectWordsAt
  split
  · exact hs
  · split
    · rename_i hmode
      exact k.injectRun _ _ (by simp [hmode]) hs
    · exact hs

theorem saveImageAt (b : List Byte) (hs : P false s) : P false (Machine.saveImageAt b s).1 := by
  unfold Machine.saveImageAt
  split
  · exact hs
  · split
    · exact hs
    · exact k.change (.store _ id) hs

theorem loadImageAt (b : List Byte) (hs : P false s) : P false (Machine.loadImageAt b s).1 := by
  unfold Machine.loadImageAt
  split
  · exact hs
  · split
    · exact hs
    · exact k.change (.store _ id) hs

theorem setStoreProtectAt (wpN : Bool) (b : List Byte) (hs : P false s) : P false (Machine.setStoreProtectAt wpN b s).1 := by
  unfold Machine.setStoreProtectAt
  dsimp only
  split
  · exact hs
  · split
    · exact hs
    · split
      · exact hs
      · exact k.change (.store _ id) hs

theorem execUnknown {s' : State} (code : Byte) (t : Transfer) (h : Machine.execUnknown code t s = .next s') (hs : P false s) :
    P false s' := by
  unfold Machine.execUnknown at h
  split at h
  · cases h
  · cases h
    exact k.change (.port _ _ fun _ hu => PortUnit.settled_answered hu _ _) (k.change (.outside _ s.pending) hs)

end KeptByChanges

end Sys2Proof.Machine
end

section
/-! PROOFS. The fields of entry images (13.5): what a field check takes, the entries it makes, and their ranges (R2 to R8), for a
written entry and for the map of a judged image (R9, R178). -/

namespace Sys2Proof.Machine

/-! ## Multi-byte values (R185) -/

theorem beNat_append_singleton (bs : List Byte) (b : Byte) : beNat (bs ++ [b]) = beNat bs * 256 + b.toNat := by
  simp [beNat]

/-- A value of `n` bytes is below 256 to the `n`. -/
theorem beNat_lt (bs : List Byte) : beNat bs < 256 ^ bs.length := by
  induction bs using List.reverseRecOn with
  | nil => decide
  | append_singleton bs b ih =>
    rw [beNat_append_singleton, List.length_append, List.length_singleton, Nat.pow_succ]
    have hb := b.isLt
    omega

theorem beAt_lt (bs : List Byte) (k n : Nat) : beAt bs k n < 256 ^ n :=
  (beNat_lt _).trans_le (Nat.pow_le_pow_right (by decide) (List.length_take_le ..))

theorem natAt_le (bs : List Byte) (k : Nat) : natAt bs k ≤ 255 := Nat.le_of_lt_succ (byteAt bs k).isLt

/-! ## The checks of a field -/

theorem Except.bind_eq_ok_iff {ε α β : Type} {x : Except ε α} {f : α → Except ε β} {b : β} :
    x.bind f = .ok b ↔ ∃ a, x = .ok a ∧ f a = .ok b := by
  cases x <;> simp [Except.bind]

theorem rangeField_eq_ok_iff {n lo hi x y : Nat} : rangeField n lo hi x = .ok y ↔ (lo ≤ x ∧ x ≤ hi) ∧ x = y := by
  unfold rangeField
  split <;> simp_all

theorem codeField_eq_ok_iff {α : Type} {n : Nat} {c : Option α} {a : α} : codeField n c = .ok a ↔ c = some a := by
  cases c <;> simp [codeField]

/-! ## The ranges of an entry that an image spells -/

/-- A GLOBAL entry within its ranges (R2). -/
def GlobalEntry.Fits (g : GlobalEntry) : Prop :=
  g.holdLimit ≤ 15 ∧ (1 ≤ g.threshold ∧ g.threshold ≤ 255) ∧ 1 ≤ g.plantMin ∧ g.plantMin ≤ 65535

/-- A LINK entry within its ranges (R3). -/
def LinkEntry.Fits (e : LinkEntry) : Prop := e.concentrator ≤ 31 ∧ 1 ≤ e.pointCount ∧ e.pointCount ≤ 16

/-- A POINT entry within its ranges (R4). -/
def PointEntry.Fits (e : PointEntry) : Prop := e.factor ≤ 4294967295 ∧ 1 ≤ e.maxInc ∧ e.maxInc ≤ 1048575

/-- A FURNACE entry within its ranges (R5). -/
def FurnaceEntry.Fits (e : FurnaceEntry) : Prop := 1 ≤ e.minMass ∧ e.minMass ≤ 65535

/-- A LINE entry within its ranges (R6). -/
def LineEntry.Fits (e : LineEntry) : Prop :=
  1 ≤ e.maxGobs ∧ e.maxGobs ≤ 65535 ∧ 1 ≤ e.minMass ∧ e.minMass ≤ 65535 ∧ ∀ p, e.weights.get p ≤ 255

/-- A CURVE entry within its ranges (R8). -/
def CurveEntry.Fits (e : CurveEntry) : Prop := ∀ s, e.gains.get s ≤ 65535

/-- A map is in range when each of its entries is. -/
theorem PlantMap.inRange_iff {m : PlantMap} : m.inRange ↔
    m.global.Fits ∧ (∀ l, (m.links.get l).Fits) ∧ (∀ p, (m.points.get p).Fits) ∧ (∀ f, (m.furnaces.get f).Fits) ∧
    (∀ l, (m.lines.get l).Fits) ∧ ∀ c, (m.curves.get c).Fits :=
  ⟨fun h => ⟨⟨h.holdLimit, h.threshold, h.plantMin⟩, h.links, h.points, h.furnaces, h.lines, h.curves⟩,
    fun ⟨hg, hlinks, hpoints, hfurnaces, hlines, hcurves⟩ =>
      ⟨hg.1, hg.2.1, hg.2.2, hlinks, hpoints, hfurnaces, hlines, hcurves⟩⟩

theorem globalOfImage_inRange {b : List Byte} {g : GlobalEntry} (h : globalOfImage b = .ok g) : g.Fits := by
  simp only [globalOfImage, Except.bind_eq_ok_iff, rangeField_eq_ok_iff, Except.ok.injEq] at h
  obtain ⟨_, ⟨hhold, rfl⟩, _, ⟨hthreshold, rfl⟩, _, -, _, -, _, -, _, ⟨hmin, rfl⟩, rfl⟩ := h
  exact ⟨hhold.2, hthreshold, hmin⟩

theorem linkOfImage_inRange {b : List Byte} {e : LinkEntry} (h : linkOfImage b = .ok e) : e.Fits := by
  simp only [linkOfImage, Except.bind_eq_ok_iff, rangeField_eq_ok_iff, Except.ok.injEq] at h
  obtain ⟨_, -, _, ⟨hid, rfl⟩, _, ⟨hcount, rfl⟩, rfl⟩ := h
  exact ⟨hid.2, hcount⟩

theorem pointOfImage_inRange {b : List Byte} {e : PointEntry} (h : pointOfImage b = .ok e) : e.Fits := by
  simp only [pointOfImage, Except.bind_eq_ok_iff, rangeField_eq_ok_iff, Except.ok.injEq] at h
  obtain ⟨_, -, _, -, _, -, _, -, _, -, _, ⟨hmax, rfl⟩, rfl⟩ := h
  exact ⟨Nat.le_of_lt_succ (beAt_lt b 4 4), hmax⟩

theorem furnaceOfImage_inRange {b : List Byte} {e : FurnaceEntry} (h : furnaceOfImage b = .ok e) : e.Fits := by
  simp only [furnaceOfImage, Except.bind_eq_ok_iff, rangeField_eq_ok_iff, Except.ok.injEq] at h
  obtain ⟨_, -, _, ⟨hmin, rfl⟩, rfl⟩ := h
  exact hmin

theorem lineOfImage_inRange {b : List Byte} {e : LineEntry} (h : lineOfImage b = .ok e) : e.Fits := by
  simp only [lineOfImage, Except.bind_eq_ok_iff, rangeField_eq_ok_iff, Except.ok.injEq] at h
  obtain ⟨_, -, _, -, _, ⟨hgobs, rfl⟩, _, ⟨hmin, rfl⟩, rfl⟩ := h
  exact ⟨hgobs.1, hgobs.2, hmin.1, hmin.2, fun p => by rw [Tab.get_ofFn]; exact natAt_le ..⟩

theorem curveOfImage_inRange (b : List Byte) : (curveOfImage b).Fits := by
  intro s
  rw [curveOfImage, Tab.get_ofFn]
  exact Nat.le_of_lt_succ (beAt_lt b (2 * s.val) 2)

/-! ## A written entry (R9) -/

theorem setAt_of_toIdx {n k : Nat} {α : Type} {i : Fin n} (h : toIdx n k = some i) (t : Tab n α) (a : α) :
    setAt t k a = t.set i a := by
  simp only [setAt, h]

theorem get_setAt {n : Nat} {α : Type} (t : Tab n α) (k : Nat) (a : α) (j : Fin n) :
    (setAt t k a).get j = if k = j.val then a else t.get j := by
  unfold setAt
  split
  · rename_i i hi
    obtain rfl := toIdx_eq_some.mp hi
    simp only [Tab.get_set, Fin.ext_iff]
  · rename_i hk
    have hle := toIdx_eq_none.mp hk
    have hj := j.isLt
    rw [if_neg (by omega)]

/-- What holds of every value of a table and of the one put in holds after the change. -/
theorem forall_get_setAt {n : Nat} {α : Type} {p : α → Prop} {t : Tab n α} {a : α} (ht : ∀ j, p (t.get j)) (ha : p a)
    (k : Nat) (j : Fin n) : p ((setAt t k a).get j) := by
  rw [get_setAt]
  split
  · exact ha
  · exact ht j

theorem fieldDetail_eq_ok_iff {α : Type} {table index : Nat} {x : Except Nat α} {a : α} :
    fieldDetail table index x = .ok a ↔ x = .ok a := by
  cases x <;> simp [fieldDetail]

theorem Except.map_eq_ok_iff {ε α β : Type} {x : Except ε α} {f : α → β} {b : β} :
    x.map f = .ok b ↔ ∃ a, x = .ok a ∧ f a = b := by
  cases x <;> simp [Except.map]

/-- A map in range keeps its ranges under every write that is taken. -/
theorem writeEntry_inRange {m m' : PlantMap} {table index : Nat} {image : List Byte} (hm : m.inRange)
    (h : writeEntry m table index image = .ok m') : m'.inRange := by
  obtain ⟨hg, hlinks, hpoints, hfurnaces, hlines, hcurves⟩ := PlantMap.inRange_iff.mp hm
  rw [PlantMap.inRange_iff]
  unfold writeEntry at h
  split at h
  · cases h
  · split at h <;> (try simp only [Except.map_eq_ok_iff, fieldDetail_eq_ok_iff] at h)
    · obtain ⟨g, hok, rfl⟩ := h
      exact ⟨globalOfImage_inRange hok, hlinks, hpoints, hfurnaces, hlines, hcurves⟩
    · obtain ⟨e, hok, rfl⟩ := h
      exact ⟨hg, forall_get_setAt hlinks (linkOfImage_inRange hok) index, hpoints, hfurnaces, hlines, hcurves⟩
    · obtain ⟨e, hok, rfl⟩ := h
      exact ⟨hg, hlinks, forall_get_setAt hpoints (pointOfImage_inRange hok) index, hfurnaces, hlines, hcurves⟩
    · obtain ⟨e, hok, rfl⟩ := h
      exact ⟨hg, hlinks, hpoints, forall_get_setAt hfurnaces (furnaceOfImage_inRange hok) index, hlines, hcurves⟩
    · obtain ⟨e, hok, rfl⟩ := h
      exact ⟨hg, hlinks, hpoints, hfurnaces, forall_get_setAt hlines (lineOfImage_inRange hok) index, hcurves⟩
    · obtain ⟨e, hok, rfl⟩ := h
      exact ⟨hg, hlinks, hpoints, hfurnaces, hlines, hcurves⟩
    · cases h
      exact ⟨hg, hlinks, hpoints, hfurnaces, hlines, forall_get_setAt hcurves (curveOfImage_inRange _) index⟩

/-! ## The map and lags of a judged image (R178) -/

theorem allSome_eq_some_iff {n : Nat} {α : Type} {d : α} {t : Tab n (Option α)} {t' : Tab n α} :
    allSome d t = some t' ↔ ∀ i, t.get i = some (t'.get i) := by
  have hall : t.list.all Option.isSome = true ↔ ∀ i, (t.get i).isSome = true := by
    simp only [List.all_eq_true, List.forall_mem_iff_forall_getElem, Tab.get, Fin.forall_iff, t.len]
  unfold allSome
  split
  · rename_i h
    have hsome := hall.mp h
    rw [Option.some_inj]
    constructor
    · rintro rfl i
      obtain ⟨a, ha⟩ := Option.isSome_iff_exists.mp (hsome i)
      simp [ha]
    · intro hi
      ext i
      simp [hi]
  · rename_i h
    simp only [reduceCtorEq, false_iff, not_forall]
    by_contra hno
    push Not at hno
    exact h (hall.mpr fun i => by rw [hno i]; rfl)

theorem bodyEntry_eq_some_iff {α : Type} {read : List Byte → Except Nat α} {body : List Byte} {base size k : Nat} {a : α} :
    bodyEntry read body base size k = some a ↔ read ((body.drop (base + size * k)).take size) = .ok a := by
  unfold bodyEntry
  cases read ((body.drop (base + size * k)).take size) <;> simp [Except.toOption]

/-- The map of a body holds, at each entry, what the entry's bytes spell. -/
theorem mapOfBody_eq_some_iff {body : List Byte} {m : PlantMap} : mapOfBody body = some m ↔
    bodyEntry globalOfImage body 0 8 0 = some m.global ∧
    (∀ i, bodyEntry linkOfImage body 8 4 i.val = some (m.links.get i)) ∧
    (∀ i, bodyEntry pointOfImage body 40 12 i.val = some (m.points.get i)) ∧
    (∀ i, bodyEntry furnaceOfImage body 1576 4 i.val = some (m.furnaces.get i)) ∧
    (∀ i, bodyEntry lineOfImage body 1592 12 i.val = some (m.lines.get i)) ∧
    (∀ i, bodyEntry poolOfImage body 1736 4 i.val = some (m.pools.get i)) ∧
    m.curves = Tab.ofFn fun i => curveOfImage ((body.drop (1752 + 32 * i.val)).take 32) := by
  simp only [mapOfBody, Option.bind_eq_some_iff, allSome_eq_some_iff, Tab.get_ofFn, Option.some_inj]
  constructor
  · rintro ⟨g, hg, links, hlinks, points, hpoints, furnaces, hfurnaces, lines, hlines, pools, hpools, rfl⟩
    exact ⟨hg, hlinks, hpoints, hfurnaces, hlines, hpools, rfl⟩
  · rintro ⟨hg, hlinks, hpoints, hfurnaces, hlines, hpools, hcurves⟩
    exact ⟨_, hg, _, hlinks, _, hpoints, _, hfurnaces, _, hlines, _, hpools, hcurves ▸ rfl⟩

theorem mapOfBody_inRange {body : List Byte} {m : PlantMap} (h : mapOfBody body = some m) : m.inRange := by
  obtain ⟨hg, hlinks, hpoints, hfurnaces, hlines, -, hcurves⟩ := mapOfBody_eq_some_iff.mp h
  exact PlantMap.inRange_iff.mpr ⟨globalOfImage_inRange (bodyEntry_eq_some_iff.mp hg),
    fun i => linkOfImage_inRange (bodyEntry_eq_some_iff.mp (hlinks i)),
    fun i => pointOfImage_inRange (bodyEntry_eq_some_iff.mp (hpoints i)),
    fun i => furnaceOfImage_inRange (bodyEntry_eq_some_iff.mp (hfurnaces i)),
    fun i => lineOfImage_inRange (bodyEntry_eq_some_iff.mp (hlines i)),
    fun i => by rw [hcurves, Tab.get_ofFn]; exact curveOfImage_inRange _⟩

theorem lagsOfBody_eq_some_iff {body : List Byte} {lags : Tab 4 Nat} : lagsOfBody body = some lags ↔
    (∀ f, lags.get f = natAt body (2008 + f.val)) ∧ ∀ f, lags.get f ≤ 63 := by
  have hall (t : Tab 4 Nat) : (t.list.all fun l => decide (l ≤ 63)) = true ↔ ∀ f, t.get f ≤ 63 := by
    simp only [List.all_eq_true, decide_eq_true_eq, List.forall_mem_iff_forall_getElem, Tab.get, Fin.forall_iff, t.len]
  unfold lagsOfBody
  dsimp only
  split
  · rename_i h
    have hle := (hall _).mp h
    rw [Option.some_inj]
    constructor
    · rintro rfl
      exact ⟨fun f => Tab.get_ofFn .., hle⟩
    · rintro ⟨heq, -⟩
      ext f
      rw [heq, Tab.get_ofFn]
  · rename_i h
    simp only [reduceCtorEq, false_iff, not_and]
    intro heq hle
    exact h ((hall _).mpr fun f => by rw [Tab.get_ofFn, ← heq]; exact hle f)

/-- A good image: its header passes, its body holds the map and the lags, and the map passes COMMIT's checks. -/
theorem judgeBody_eq_good_iff {body : List Byte} {m : PlantMap} {lags : Tab 4 Nat} : judgeBody body = .good m lags ↔
    mapOfBody body = some m ∧ lagsOfBody body = some lags ∧ mapCheck m = none := by
  unfold judgeBody
  split
  · rename_i m' lags' hm hl
    rw [hm, hl, Option.some_inj, Option.some_inj]
    split
    · rename_i hcheck
      rw [Verdict.good.injEq]
      refine ⟨fun h => ⟨h.1, h.2, ?_⟩, fun h => ⟨h.1, h.2.1⟩⟩
      rw [← h.1]
      exact Option.isNone_iff_eq_none.mp hcheck
    · rename_i hcheck
      simp only [reduceCtorEq, false_iff]
      rintro ⟨rfl, -, h⟩
      exact hcheck (Option.isNone_iff_eq_none.mpr h)
  · rename_i hno
    simp only [reduceCtorEq, false_iff]
    rintro ⟨hm, hl, -⟩
    exact hno _ _ hm hl

theorem judgeBody_of_judgeImage_good {img : List Host.Cell} {m : PlantMap} {lags : Tab 4 Nat}
    (h : judgeImage img = .good m lags) : judgeBody (Image.bytes img 12 bodyLength) = .good m lags := by
  unfold judgeImage at h
  dsimp only at h
  split at h
  · cases h
  · split at h
    · cases h
    · split at h
      · cases h
      · split at h
        · cases h
        · exact h

theorem judgeImage_good_inRange {img : List Host.Cell} {m : PlantMap} {lags : Tab 4 Nat}
    (h : judgeImage img = .good m lags) : m.inRange ∧ ∀ f, lags.get f ≤ 63 := by
  obtain ⟨hm, hl, -⟩ := judgeBody_eq_good_iff.mp (judgeBody_of_judgeImage_good h)
  exact ⟨mapOfBody_inRange hm, (lagsOfBody_eq_some_iff.mp hl).2⟩

end Sys2Proof.Machine
end

section
/-! PROOFS. The start of a computation in its parts (R56, R126), and the induction over a whole command and a whole step: what every change keeps, every command and every step keeps. -/

namespace Sys2Proof.Machine

/-! ## The start of a computation in its parts -/

/-- Set `i` COMPUTING, the states of the moment sampled, accumulators and working copy cleared (R56, R126). -/
def State.beginComputation (i : Fin 2) (s : State) : State :=
  { s.putSet i { s.ctrl.sets.get i with status := .computing } with
    engine := { Engine.idle with
      phase := .started
      lineStates := s.ctrl.lineStates
      furnaceStates := s.furnaces.mapIdx fun _ f => f.state }
    working := some (.blank (s.ctrl.sets.get i).interval) }

/-- The quarantine states sampled. -/
def State.sampleQuarantine (s : State) : State :=
  { s with engine := { s.engine with quarantined := s.links.mapIdx fun _ k => k.quarantined } }

theorem State.startComputation_eq (s : State) (i : Fin 2) : s.startComputation i =
    let begun := s.beginComputation i
    let applied := if s.commitDue then begun.applyMap else begun
    (if s.beginsPeriod then applied.applyPendingLags else applied).sampleQuarantine := rfl

/-- What the parts of a computation's start keep holds after it. -/
theorem State.startComputation_preserves {P : State → Prop} {s : State} {i : Fin 2} (hbegin : P (s.beginComputation i))
    (happly : ∀ {s}, P s → P s.applyMap) (hlags : ∀ {s : State}, P s → P s.applyPendingLags)
    (hsample : ∀ {s : State}, P s → P s.sampleQuarantine) : P (s.startComputation i) := by
  rw [State.startComputation_eq]
  apply hsample
  split
  · apply hlags
    split
    · exact happly hbegin
    · exact hbegin
  · split
    · exact happly hbegin
    · exact hbegin

/-! ## The induction -/

namespace KeptByChanges

variable {P : Bool → State → Prop} (k : KeptByChanges P) {s s' : State}
include k

/-! ### The maps and the store -/

theorem writeStaged (b : List Byte) (hs : P false s) : P false (Machine.writeStaged b s).1 := by
  unfold Machine.writeStaged
  cases s.plant.commitPending with
  | true => exact hs
  | false =>
    cases hwrite : writeEntry s.plant.staged (natAt b 0) (natAt b 1) (b.drop 2) with
    | ok m => exact k.change (.staged m fun hstaged _ => writeEntry_inRange hstaged hwrite) hs
    | error d => exact hs

theorem discardStagedMap (b : List Byte) (hs : P false s) : P false (Machine.discardStagedMap b s).1 := by
  unfold Machine.discardStagedMap
  cases s.plant.commitPending with
  | true => exact hs
  | false => exact k.change (.staged s.plant.active fun _ hactive => hactive) hs

theorem accountingResetAt (b : List Byte) (h : s.ctrl.acc ≠ .booting) (hs : P false s) :
    P false (Machine.accountingResetAt b s).1 := k.change (.accountingReset h) hs

theorem completeLoad (hs : P false s) : P false s.completeLoad := by
  unfold State.completeLoad
  split
  · rename_i m lags hgood
    have hstore := k.change (.store (s.store.finish .load .good 0) id) hs
    exact k.change (.notify _) (k.change (.staged m fun _ _ => (judgeImage_good_inRange hgood).1) hstore)
  · rename_i n hbad
    exact k.change (.notify _) (k.change (.notify _) (k.change (.store (s.store.finish .load .bad n) id) hs))

theorem saveComplete (h : execSaveComplete s = .next s') (hs : P false s) : P false s' := by
  cases h
  split
  · exact k.change (.notify _) (k.change (.store (s.store.finish .save .written 0) id) hs)
  · exact hs

/-! ### Reads at their moment -/

theorem atMoment (m : ReadMoment) (hs : P false s) : P false (s.atMoment m) := by
  cases m with
  | inTurn => exact hs
  | beforeSwap => exact atStage (fun i hset hphase => k.bankInterval i hset hphase hs) hs

/-! ### Commands -/

theorem completion (h : execCompletion s = .next s') (hs : P false s) : P false s' := by
  cases h
  split
  · exact atStage (fun i hset hphase => k.finishCompletion i hset hphase hs) hs
  · exact atStage (fun i hset hphase => k.complete i hset hphase hs) hs

theorem imark (pmark : Bool) (h : execImark pmark s = .next s') (hs : P false s) : P false s' := by
  cases h
  split
  · rename_i hacc
    split
    · exact k.notifyIf pmark _ (k.change (.notify _) hs)
    · rename_i hbusy
      exact k.change (.mark pmark hacc (Bool.eq_false_iff.mpr hbusy)) hs
  · exact hs

/-- What every change keeps, every command keeps. -/
theorem exec {i : Instr} (h : Machine.exec i s = .next s') (hs : P false s) : P false s' := by
  cases i with
  | readStatus t => cases h; exact k.change (.port _ _ fun _ hu => PortUnit.settled_readStatus hu ..) hs
  | readId t => cases h; exact k.read hs fun _ hc => by cases hc; exact ((everyCopyFitsTheBuffer s).1 t.port).1
  | readNotices t => cases h; exact k.read hs fun _ hc => by cases hc; exact ((everyCopyFitsTheBuffer s).1 t.port).2
  | readResult t => cases h; exact k.read hs fun _ => length_resultCopy
  | readBankRecord t => cases h; exact k.read (k.atMoment t.moment hs) fun _ => length_bankCopy
  | readPointState t => cases h; exact k.read hs fun _ => length_pointStateCopy
  | readQueue t => cases h; exact k.read hs fun _ => length_queueCopy
  | readLinkStatus t => cases h; exact k.read hs fun _ => length_linkStatusCopy
  | readStagedEntry t => cases h; exact k.read hs fun _ => length_entryCopy
  | readActiveEntry t => cases h; exact k.read hs fun _ => length_entryCopy
  | readStore t wpN => cases h; exact k.read hs fun _ => length_storeCopy
  | clearNotices t => cases h; exact k.write hs fun _ => k.clearNoticesAt t.port _ hs
  | setNoticeMask t => cases h; exact k.write hs fun _ => k.setNoticeMaskAt t.port _ hs
  | setFurnaceState t => cases h; exact k.write hs fun _ => k.setFurnaceStateAt _ hs
  | setLag t => cases h; exact k.write hs fun _ => k.setLagAt _ hs
  | lineTally t => cases h; exact k.write hs fun _ => k.lineTallyAt _ hs
  | setLineState t => cases h; exact k.write hs fun _ => k.setLineStateAt _ hs
  | writeStagedEntry t => cases h; exact k.write hs fun _ => k.writeStaged _ hs
  | commit t => cases h; exact k.write hs fun _ => k.commitStaged _ hs
  | discardStaged t => cases h; exact k.write hs fun _ => k.discardStagedMap _ hs
  | startAccounting t => cases h; exact k.write hs fun _ => k.startAccountingAt _ hs
  | stopAccounting t => cases h; exact k.write hs fun _ => k.stopAccountingAt _ hs
  | closePeriod t => cases h; exact k.write hs fun _ => k.closePeriodAt _ hs
  | accountingReset t => cases h; exact k.write hs fun hacc => k.accountingResetAt _ hacc hs
  | clearLinkCounters t => cases h; exact k.write hs fun _ => k.clearLinkCountersAt _ hs
  | injectWords t => cases h; exact k.write hs fun _ => k.injectWordsAt _ hs
  | saveImage t => cases h; exact k.write hs fun _ => k.saveImageAt _ hs
  | loadImage t => cases h; exact k.write hs fun _ => k.loadImageAt _ hs
  | setStoreProtect t wpN => cases h; exact k.write hs fun _ => k.setStoreProtectAt wpN _ hs
  | unknown code t => exact k.execUnknown code t h hs
  | imark pmark => exact k.imark pmark h hs
  | linkWord l w => cases h; exact k.wireWord l w hs
  | pinReset => cases h; exact k.change .pinReset hs
  | startUpReadDone =>
    cases h
    split
    · rename_i hacc; exact k.change (.endBooting hacc) hs
    · exact hs
  | imageByteWrite => cases h; exact k.change (.store _ Store.writeByte_wf) hs
  | saveComplete => exact k.saveComplete h hs
  | loadComplete =>
    cases h
    split
    · exact k.completeLoad hs
    · exact hs
  | reconciliationStage => cases h; exact atStage (fun i hset hphase => k.change (.reconcile i hset hphase) hs) hs
  | conversionStage => cases h; exact atStage (fun i hset hphase => k.change (.convert i hset hphase) hs) hs
  | residenceQueueStage => cases h; exact atStage (fun i hset hphase => k.change (.queue i hset hphase) hs) hs
  | furnaceSplit => cases h; exact atStage (fun i hset hphase => k.change (.furnaceSplit i hset hphase) hs) hs
  | poolSplit => cases h; exact atStage (fun i hset hphase => k.change (.poolSplit i hset hphase) hs) hs
  | totalsStage => cases h; exact atStage (fun i hset hphase => k.change (.totals i hset hphase) hs) hs
  | completion => exact k.completion h hs

/-- What every change keeps, every step keeps. -/
theorem step (h : Machine.step s = .next s') (hs : P false s) : P false s' := by
  unfold Machine.step at h
  split at h
  · cases h; exact hs
  · rename_i c rest hpending
    exact k.exec h (k.change (.outside s.freeIdx rest) hs)

end KeptByChanges

end Sys2Proof.Machine
end

section
/-! PROOFS. The period banks (R144 to R154): when a record is above 48 bits, what a bank keeps as it settles, the roles of the two
banks, and the banks' law under every change. -/

namespace Sys2Proof.Machine

/-! ## Above 48 bits (R148) -/

theorem Kj.above_eq_true_iff {m : Nat} {k : Kj} : k.above m = true ↔ ∃ c, m < k.get c := by
  simp only [Kj.above, Bool.or_eq_true, decide_eq_true_eq]
  constructor
  · rintro (((h | h) | h) | h)
    · exact ⟨.fuel, h⟩
    · exact ⟨.elec, h⟩
    · exact ⟨.oxy, h⟩
    · exact ⟨.aux, h⟩
  · rintro ⟨c, h⟩
    cases c
    · exact .inl (.inl (.inl h))
    · exact .inl (.inl (.inr h))
    · exact .inl (.inr h)
    · exact .inr h

@[simp] theorem Kj.above_limit (m : Nat) (k : Kj) : (k.limit m).above m = false := by
  rw [Bool.eq_false_iff, Ne, Kj.above_eq_true_iff]
  rintro ⟨c, h⟩
  rw [Kj.get_limit] at h
  omega

@[simp] theorem FurnaceRecord.above_limit (r : FurnaceRecord) : r.limit.above = false := by
  simp [FurnaceRecord.above, FurnaceRecord.limit]

@[simp] theorem LineBankRecord.above_limit (r : LineBankRecord) : r.limit.above = false := by
  simp [LineBankRecord.above, LineBankRecord.limit]

@[simp] theorem PoolRecord.above_limit (r : PoolRecord) : r.limit.above = false := by
  simp [PoolRecord.above, PoolRecord.limit]

@[simp] theorem PlantRecord.above_limit (r : PlantRecord) : r.limit.above = false := by
  simp [PlantRecord.above, PlantRecord.limit]

theorem Bank.above_eq_false_iff {b : Bank} : b.above = false ↔
    (∀ f, (b.furnaces.get f).above = false) ∧ (∀ l, (b.lines.get l).above = false) ∧
    (∀ p, (b.pools.get p).above = false) ∧ b.plant.above = false := by
  rw [Bool.eq_false_iff, Ne]
  simp only [Bank.above, Bool.or_eq_true, anyIdx_iff, not_or, not_exists, Bool.not_eq_true, and_assoc]

/-- A settled bank lies within its 48 bits. -/
@[simp] theorem Bank.above_settle (b : Bank) : b.settle.above = false := by
  simp [Bank.above_eq_false_iff, Bank.settle]

@[simp] theorem Bank.above_cleared (st : BankState) (n : BitVec 32) : (Bank.cleared st n).above = false := by
  rw [Bank.above_eq_false_iff]
  simp only [Bank.cleared, Tab.get_const]
  exact ⟨fun _ => by decide, fun _ => by decide, fun _ => by decide, by decide⟩

/-! ## What an added interval and a move keep -/

/-- Two banks with the same role: state, period, cause and what was in process at the start. -/
structure Bank.SameRole (a b : Bank) : Prop where
  state   : b.state = a.state
  period  : b.period = a.period
  cause   : b.cause = a.cause
  atStart : ∀ f, (b.furnaces.get f).atStart = (a.furnaces.get f).atStart

theorem Bank.SameRole.trans {a b c : Bank} (h : a.SameRole b) (h' : b.SameRole c) : a.SameRole c :=
  ⟨h'.state.trans h.state, h'.period.trans h.period, h'.cause.trans h.cause, fun f => (h'.atStart f).trans (h.atStart f)⟩

theorem Bank.sameRole_settle (b : Bank) : b.SameRole b.settle :=
  ⟨rfl, rfl, rfl, fun f => by simp [Bank.settle, FurnaceRecord.limit]⟩

theorem Bank.sameRole_addNoPull (b : Bank) (f : Fin 4) (k : Kj) : b.SameRole (b.addNoPull f k) :=
  ⟨rfl, rfl, rfl, fun g => by simp only [Bank.addNoPull, Tab.get_modify]; split <;> rfl⟩

theorem Bank.sameRole_addExact (b : Bank) (t : ResultTable) : b.SameRole (b.addExact t) :=
  ⟨rfl, rfl, rfl, fun f => by
    simp only [Bank.addExact, Tab.get_mapIdx, addPresent]
    split <;> rfl⟩

theorem Bank.sameRole_addInterval (b : Bank) (t : ResultTable) (q : Bool) : b.SameRole (b.addInterval t q) :=
  (b.sameRole_addExact t).trans ⟨rfl, rfl, rfl, (Bank.sameRole_settle _).atStart⟩

/-- A bank with an interval added lies within its 48 bits. -/
theorem Bank.above_addInterval (b : Bank) (t : ResultTable) (q : Bool) : (b.addInterval t q).above = false :=
  Bank.above_settle (b.addExact t)

/-! ## The roles of the two banks (R144) -/

/-- What bank `o` is beside the ACTIVE bank `a`: EMPTY, or FROZEN with the period before it. -/
def Bank.Precedes (o a : Bank) : Prop :=
  o = .cleared .empty 0 ∨
    (o.state = .frozen ∧ o.cause ≠ none ∧ o.period + 1 = a.period ∧
      ∀ f, (o.furnaces.get f).nowFrozen = (a.furnaces.get f).atStart)

theorem Bank.Precedes.state_ne_active {o a : Bank} (h : o.Precedes a) : o.state ≠ .active := by
  obtain rfl | ⟨hstate, -⟩ := h
  · nofun
  · rw [hstate]; nofun

theorem Bank.Precedes.of_sameRole {o a b : Bank} (h : o.Precedes a) (hr : a.SameRole b) : o.Precedes b := by
  obtain rfl | ⟨hstate, hcause, hperiod, hstart⟩ := h
  · exact .inl rfl
  · exact .inr ⟨hstate, hcause, hperiod.trans hr.period.symm, fun f => (hstart f).trans (hr.atStart f).symm⟩

/-- The ACTIVE bank is the one whose state says so, where the other's does not. -/
theorem State.activeIdx_eq {s : State} {i : Fin 2} (h : (s.banks.get i).state = .active)
    (ho : (s.banks.get (other i)).state ≠ .active) : s.activeIdx = i := by
  unfold State.activeIdx
  match i with
  | 0 => exact if_pos h
  | 1 => exact if_neg ho

/-- The banks' law, told of the ACTIVE bank. -/
theorem State.bankLaw_iff {s : State} : s.bankLaw ↔
    (∀ i, (s.banks.get i).above = false) ∧ s.activeBank.state = .active ∧ s.activeBank.cause = none ∧
    (s.banks.get (other s.activeIdx)).Precedes s.activeBank := by
  constructor
  · rintro ⟨habove, i, hstate, hcause, hother⟩
    have hi : s.activeIdx = i := State.activeIdx_eq hstate (Bank.Precedes.state_ne_active (a := s.banks.get i) hother)
    simp only [State.activeBank, hi]
    exact ⟨habove, hstate, hcause, hother⟩
  · rintro ⟨habove, hstate, hcause, hother⟩
    exact ⟨habove, s.activeIdx, hstate, hcause, hother⟩

/-- Every state of the law has its ACTIVE bank within 48 bits. -/
theorem State.bankLaw.activeBank_above {s : State} (h : s.bankLaw) : s.activeBank.above = false := h.1 _

/-- The law turns on the banks alone. -/
theorem State.bankLaw_congr {s t : State} (h : t.banks = s.banks) (hs : s.bankLaw) : t.bankLaw := by
  unfold State.bankLaw at hs ⊢
  rw [h]
  exact hs

/-- The ACTIVE bank replaced by one in its role: which bank is ACTIVE stands. -/
theorem State.activeIdx_putBank {s : State} {b : Bank} (ho : (s.banks.get (other s.activeIdx)).state ≠ .active) (hb : b.state = .active) :
    (s.putBank s.activeIdx b).activeIdx = s.activeIdx :=
  State.activeIdx_eq (by simp [hb]) (by simpa [Tab.get_set, (other_ne _).symm] using ho)

/-- The ACTIVE bank replaced by one in its role, within 48 bits. -/
theorem State.bankLaw_putBank {s : State} {b : Bank} (hs : s.bankLaw) (hrole : s.activeBank.SameRole b)
    (habove : b.above = false) : (s.putBank s.activeIdx b).bankLaw := by
  obtain ⟨hall, hstate, hcause, hother⟩ := State.bankLaw_iff.mp hs
  refine ⟨fun i => ?_, s.activeIdx, ?_, ?_, ?_⟩
  · rw [State.putBank_banks, Tab.get_set]
    split
    · exact habove
    · exact hall i
  all_goals rw [State.putBank_banks, Tab.get_set_self]
  · exact hrole.state.trans hstate
  · exact hrole.cause.trans hcause
  · rw [Tab.get_set_ne _ (other_ne _).symm]
    exact hother.of_sameRole hrole

/-! ## The law under every change -/

theorem State.bankLaw_retireFurnace {s : State} (f : Fin 4) (hs : s.bankLaw) : (s.retireFurnace f).bankLaw := by
  refine State.bankLaw_congr ?_ (State.bankLaw_putBank hs
    ((Bank.sameRole_addNoPull _ f (queueContent (s.furnaces.get f).queue)).trans (Bank.sameRole_settle _))
    (Bank.above_settle _))
  simp [State.retireFurnace]

/-- What the retirement of each furnace keeps, the apply's retirements keep. -/
theorem State.retireFurnaces_preserves {P : State → Prop} (h : ∀ s f, P s → P (s.retireFurnace f)) (old new : PlantMap)
    {s : State} (hs : P s) : P (s.retireFurnaces old new) := by
  refine foldl_preserves (fun s f hs => ?_) _ hs
  split
  · exact h s f hs
  · exact hs

theorem State.bankLaw_applyMap {s : State} (hs : s.bankLaw) : s.applyMap.bankLaw := by
  have hretired : (((({ s with plant := ⟨s.plant.staged, s.plant.staged, false⟩ } : State).clearChangedSources
      s.plant.active s.plant.staged)).retireFurnaces s.plant.active s.plant.staged).bankLaw :=
    State.retireFurnaces_preserves (fun _ f h => State.bankLaw_retireFurnace f h) _ _ hs
  exact State.bankLaw_congr (by simp [State.applyMap]) hretired

theorem State.bankLaw_startComputation {s : State} (i : Fin 2) (hs : s.bankLaw) : (s.startComputation i).bankLaw :=
  State.startComputation_preserves (State.bankLaw_congr rfl hs) State.bankLaw_applyMap (State.bankLaw_congr rfl)
    (State.bankLaw_congr rfl)

theorem State.bankLaw_closeWindow {s : State} (hold : Bool) (i : Fin 2) (hs : s.bankLaw) :
    (s.closeWindow hold i).bankLaw := by
  unfold State.closeWindow
  dsimp only
  split
  · exact State.bankLaw_congr rfl hs
  · exact State.bankLaw_startComputation i (State.bankLaw_congr rfl hs)

theorem State.bankLaw_judgeClosure {s : State} (hold : Bool) (hs : s.bankLaw) : (s.judgeClosure hold).bankLaw := by
  unfold State.judgeClosure
  split
  · split
    · exact State.bankLaw_closeWindow hold _ hs
    · exact hs
  · exact hs

theorem State.bankLaw_returnToReady {s : State} (hs : s.bankLaw) : s.returnToReady.bankLaw := by
  unfold State.returnToReady
  dsimp only
  split
  · exact State.bankLaw_applyMap (State.bankLaw_congr (by simp) hs)
  · exact State.bankLaw_congr (by simp) hs

theorem State.bankLaw_acceptMark {s : State} (pmark : Bool) (hs : s.bankLaw) : (s.acceptMark pmark).bankLaw := by
  unfold State.acceptMark
  dsimp only
  refine State.bankLaw_judgeClosure false (State.bankLaw_congr (s := _) (State.openWindow_banks ..) ?_)
  split
  · exact State.bankLaw_closeWindow false _ hs
  · exact hs

/-- The two banks after a swap (R153). -/
theorem State.swap_banks (s : State) (c : CloseCause) : (s.swap c).banks =
    (s.banks.set s.activeIdx (s.activeBank.freeze c s.inProcess)).set (other s.activeIdx)
      (Bank.fresh (s.activeBank.period + 1) s.inProcess) := rfl

theorem State.swap_banks_get_active (s : State) (c : CloseCause) :
    (s.swap c).banks.get s.activeIdx = s.activeBank.freeze c s.inProcess := by
  rw [State.swap_banks, Tab.get_set_ne _ (other_ne _), Tab.get_set_self]

theorem State.swap_banks_get_other (s : State) (c : CloseCause) :
    (s.swap c).banks.get (other s.activeIdx) = Bank.fresh (s.activeBank.period + 1) s.inProcess := by
  rw [State.swap_banks, Tab.get_set_self]

@[simp] theorem Bank.above_freeze (b : Bank) (c : CloseCause) (now : Tab 4 Kj) : (b.freeze c now).above = b.above := by
  simp [Bank.freeze, Bank.above, FurnaceRecord.above]

@[simp] theorem Bank.above_fresh (n : BitVec 32) (now : Tab 4 Kj) : (Bank.fresh n now).above = false := by
  have h := Bank.above_eq_false_iff.mp (Bank.above_cleared .active n)
  rw [Bank.above_eq_false_iff]
  refine ⟨fun f => ?_, h.2⟩
  rw [Bank.fresh, Tab.get_ofFn]
  exact (by decide : FurnaceRecord.zero.above = false)

theorem State.bankLaw_swap {s : State} (c : CloseCause) (hs : s.bankLaw) : (s.swap c).bankLaw := by
  have hactive := s.swap_banks_get_active c
  have hother := s.swap_banks_get_other c
  refine ⟨fun i => ?_, other s.activeIdx, ?_, ?_, .inr ?_⟩
  · by_cases hi : i = s.activeIdx
    · rw [hi, hactive, Bank.above_freeze]
      exact hs.1 _
    · rw [eq_other hi, hother, Bank.above_fresh]
  · rw [hother]; rfl
  · rw [hother]; rfl
  · rw [other_other, hactive, hother]
    exact ⟨rfl, nofun, rfl, fun f => by simp [Bank.freeze, Bank.fresh]⟩

theorem State.bankLaw_publish {s : State} (mark : Option CloseCause) (t : ResultTable) (hs : s.bankLaw) :
    (s.publish mark t).bankLaw :=
  State.bankLaw_congr (by simp [State.publish, State.completionNotices])
    (State.bankLaw_putBank hs (Bank.sameRole_addInterval _ t s.engine.saturated) (Bank.above_addInterval ..))

theorem State.bankLaw_afterReset {s : State} (h : s.banks = Bank.afterReset) : s.bankLaw := by
  unfold State.bankLaw
  rw [h]
  refine ⟨fun i => ?_, 0, rfl, rfl, .inl rfl⟩
  match i with
  | 0 => exact Bank.above_cleared .active 1
  | 1 => exact Bank.above_cleared .empty 0

theorem State.bankLaw_afterCompletion {s : State} (i : Fin 2) (hs : s.bankLaw) : (s.afterCompletion i).bankLaw := by
  have hfreed : ({ s.putSet i .free with engine := .idle } : State).bankLaw := State.bankLaw_congr rfl hs
  unfold State.afterCompletion
  dsimp only
  split
  · exact State.bankLaw_startComputation _ hfreed
  · split
    · exact State.bankLaw_returnToReady hfreed
    · exact hfreed

theorem State.endBooting_banks (s : State) : s.endBooting.banks = s.banks := by
  unfold State.endBooting
  split <;> rfl

/-- Every change keeps the banks' law. -/
theorem State.bankLaw_change {hold : Bool} {s t : State} (h : Change hold s t) (hs : s.bankLaw) : t.bankLaw := by
  cases h with
  | errorEvent l e => exact State.bankLaw_congr (State.errorEvent_banks ..) hs
  | clearLink l => exact State.bankLaw_congr (State.clearLink_banks ..) hs
  | apply => exact State.bankLaw_applyMap hs
  | close i => exact State.bankLaw_closeWindow _ i hs
  | mark pmark => exact State.bankLaw_acceptMark pmark hs
  | stopOpen i => exact State.bankLaw_closeWindow false i (State.bankLaw_congr rfl hs)
  | swap c => exact State.bankLaw_swap c hs
  | stopNow => exact State.bankLaw_returnToReady hs
  | accountingReset => exact State.bankLaw_afterReset rfl
  | pinReset => exact State.bankLaw_afterReset rfl
  | bank i mark t => exact State.bankLaw_congr rfl (State.bankLaw_publish mark t hs)
  | finish i => exact State.bankLaw_afterCompletion i hs
  | endBooting => exact State.bankLaw_congr s.endBooting_banks hs
  | _ => exact State.bankLaw_congr rfl hs

theorem State.bankLaw_startWaiting {s : State} (hs : s.bankLaw) : s.startWaiting.bankLaw := by
  unfold State.startWaiting
  split
  · split
    · exact hs
    · exact State.bankLaw_startComputation _ hs
  · exact hs

theorem keptByChanges_bankLaw : KeptByChanges fun _ s => s.bankLaw :=
  ⟨State.bankLaw_change, id, State.bankLaw_startWaiting⟩

/-- Settles O56: every change of a step keeps the law, since each leaves the banks or changes the ACTIVE one within its role. -/
theorem everyStepKeepsTheBanks : Obligations.EveryStepKeepsTheBanks := fun _ _ hs hstep =>
  keptByChanges_bankLaw.step hstep hs

end Sys2Proof.Machine
end

section
/-! PROOFS. The slot sets and the engine (R49, R55, R56, R66): their law told of one set and the other, and kept by every change. -/

namespace Sys2Proof.Machine

/-! ## The law told of one set and the other -/

/-- What the slot sets' law says of the statuses `x` and `y` of the two sets. Inside a run of injected words (`hold`) a set may wait
with the engine idle (log entry 14). -/
structure SlotsAgree (hold : Bool) (acc : AccState) (phase : Phase) (working : Bool) (x y : SetStatus) : Prop where
  engine   : phase = .idle ↔ x ≠ .computing ∧ y ≠ .computing
  working  : (phase = .idle ∨ phase = .banked) ↔ working = false
  one      : x = .computing → y ≠ .computing
  waits    : x = .waiting → y = .computing ∨ (hold = true ∧ y = .free)
  waits'   : y = .waiting → x = .computing ∨ (hold = true ∧ x = .free)
  opened   : x = .opened → y = .free ∨ y = .computing
  opened'  : y = .opened → x = .free ∨ x = .computing
  stopping : acc = .stopping → (x = .computing ∨ y = .computing) ∧ x ≠ .opened ∧ y ≠ .opened
  idle     : acc ≠ .running → acc ≠ .stopping → x = .free ∧ y = .free

theorem SlotsAgree.symm {hold : Bool} {acc : AccState} {phase : Phase} {working : Bool} {x y : SetStatus}
    (h : SlotsAgree hold acc phase working x y) : SlotsAgree hold acc phase working y x where
  engine := h.engine.trans and_comm
  working := h.working
  one hy hx := h.one hx hy
  waits := h.waits'
  waits' := h.waits
  opened := h.opened'
  opened' := h.opened
  stopping hacc := ⟨(h.stopping hacc).1.symm, (h.stopping hacc).2.symm⟩
  idle hrun hstop := (h.idle hrun hstop).symm

/-- A computation starts where no other is in flight. -/
theorem SlotsAgree.start {hold : Bool} {acc : AccState} {y : SetStatus} (hacc : acc = .running ∨ acc = .stopping)
    (hy : y = .free ∨ (y = .opened ∧ acc = .running)) : SlotsAgree hold acc .started true .computing y := by
  obtain rfl | ⟨rfl, rfl⟩ := hy
  · obtain rfl | rfl := hacc <;> constructor <;> simp
  · constructor <;> simp

/-- An open window is closed only in RUNNING. -/
theorem SlotsAgree.running_of_opened {hold : Bool} {acc : AccState} {phase : Phase} {working : Bool} {y : SetStatus}
    (h : SlotsAgree hold acc phase working .opened y) : acc = .running := by
  by_contra hrunning
  exact nomatch (h.idle hrunning fun hstop => (h.stopping hstop).2.1 rfl).1

/-- A closed window waits for the computation in flight, or for the end of a run of injected words. -/
theorem SlotsAgree.wait {hold : Bool} {acc : AccState} {phase : Phase} {working : Bool} {y : SetStatus}
    (h : SlotsAgree hold acc phase working .opened y) (hy : y = .computing ∨ hold = true) :
    SlotsAgree hold acc phase working .waiting y := by
  have hrunning := h.running_of_opened
  have hother := h.opened rfl
  obtain ⟨hengine, hworking, -⟩ := h
  subst hrunning
  obtain rfl | rfl := hother
  · constructor <;> simp_all
  · constructor <;> simp_all

/-- The slot sets' law, inside a run of injected words or outside. -/
def SlotLawIn (hold : Bool) (s : State) : Prop :=
  SlotsAgree hold s.ctrl.acc s.engine.phase s.working.isSome (s.ctrl.sets.get 0).status (s.ctrl.sets.get 1).status

/-- The law looks alike from either set. -/
theorem slotLawIn_iff {hold : Bool} {s : State} (i : Fin 2) : SlotLawIn hold s ↔ SlotsAgree hold s.ctrl.acc
    s.engine.phase s.working.isSome (s.ctrl.sets.get i).status (s.ctrl.sets.get (other i)).status := by
  match i with
  | 0 => exact Iff.rfl
  | 1 => exact ⟨SlotsAgree.symm, SlotsAgree.symm⟩

theorem slotLaw_iff {s : State} : SlotLaw s ↔ SlotLawIn false s := by
  constructor
  · intro h
    exact {
      engine := h.engine.trans ⟨fun hi => ⟨hi 0, hi 1⟩, fun hi => Fin.forall_fin_two.mpr hi⟩
      working := h.working.trans (by simp)
      one := h.one 0
      waits := fun hx => .inl (h.waiting 0 hx)
      waits' := fun hy => .inl (h.waiting 1 hy)
      opened := h.opened 0
      opened' := h.opened 1
      stopping := fun hacc => ⟨Fin.exists_fin_two.mp (h.stopping hacc).1, (h.stopping hacc).2 0, (h.stopping hacc).2 1⟩
      idle := fun hrun hstop => ⟨h.idle hrun hstop 0, h.idle hrun hstop 1⟩ }
  · intro h
    have hat (i : Fin 2) := (slotLawIn_iff i).mp h
    exact {
      engine := h.engine.trans (Fin.forall_fin_two (p := fun i => (s.ctrl.sets.get i).status ≠ .computing)).symm
      working := h.working.trans (by simp)
      one := fun i => (hat i).one
      waiting := fun i hi => ((hat i).waits hi).resolve_right fun hhold => nomatch hhold.1
      opened := fun i => (hat i).opened
      stopping := fun hacc => ⟨Fin.exists_fin_two.mpr (h.stopping hacc).1, Fin.forall_fin_two.mpr (h.stopping hacc).2⟩
      idle := fun hrun hstop => Fin.forall_fin_two.mpr (h.idle hrun hstop) }

/-- The law turns on the accounting state, the stage, the working copy's presence and the statuses. -/
theorem slotLawIn_congr {hold : Bool} {s t : State} (hacc : t.ctrl.acc = s.ctrl.acc)
    (hphase : t.engine.phase = s.engine.phase) (hworking : t.working.isSome = s.working.isSome)
    (hstatus : ∀ i, (t.ctrl.sets.get i).status = (s.ctrl.sets.get i).status) (hs : SlotLawIn hold s) : SlotLawIn hold t := by
  unfold SlotLawIn at hs ⊢
  rw [hacc, hphase, hworking, hstatus, hstatus]
  exact hs

/-- Deliveries dropped leave the law. -/
theorem slotLawIn_of_drops {hold : Bool} {s t : State} (hctrl : s.ctrl.DropsOnly t.ctrl) (hengine : t.engine = s.engine)
    (hworking : t.working = s.working) (hs : SlotLawIn hold s) : SlotLawIn hold t :=
  slotLawIn_congr hctrl.acc (congrArg Engine.phase hengine) (congrArg Option.isSome hworking) hctrl.status hs

/-! ## What the searches say of the two sets -/

theorem Controller.setWith_ne_none {c : Controller} {st : SetStatus} :
    c.setWith st ≠ none ↔ ∃ i, (c.sets.get i).status = st := by
  rw [Ne, Controller.setWith_eq_none]
  push Not
  rfl

theorem State.busy_eq_false_iff {s : State} : s.busy = false ↔ ∀ i, (s.ctrl.sets.get i).status ≠ .computing := by
  rw [← Controller.setWith_eq_none]
  exact Option.isSome_eq_false_iff.trans Option.isNone_iff_eq_none

/-- One set's status and the other's, where set `i` is replaced. -/
theorem Controller.status_set (c : Controller) (i : Fin 2) (w : SlotSet) :
    ((c.sets.set i w).get i).status = w.status ∧
      ((c.sets.set i w).get (other i)).status = (c.sets.get (other i)).status := by
  rw [Tab.get_set_self, Tab.get_set_ne _ (other_ne i).symm]
  exact ⟨rfl, rfl⟩

/-! ## The start of a computation and closure (R55, R56) -/

/-- The two sets right after the start of a computation. -/
theorem State.startComputation_status (s : State) (i : Fin 2) :
    ((s.startComputation i).ctrl.sets.get i).status = .computing ∧
      ((s.startComputation i).ctrl.sets.get (other i)).status = (s.ctrl.sets.get (other i)).status := by
  have hdrops := (s.startComputation_drops i).status
  obtain ⟨hself, hother⟩ := s.ctrl.status_set i { s.ctrl.sets.get i with status := .computing }
  exact ⟨(hdrops i).trans hself, (hdrops (other i)).trans hother⟩

theorem slotLawIn_startComputation {hold : Bool} {s : State} {i : Fin 2}
    (hacc : s.ctrl.acc = .running ∨ s.ctrl.acc = .stopping)
    (hother : (s.ctrl.sets.get (other i)).status = .free ∨
      ((s.ctrl.sets.get (other i)).status = .opened ∧ s.ctrl.acc = .running)) :
    SlotLawIn hold (s.startComputation i) := by
  obtain ⟨hself', hother'⟩ := s.startComputation_status i
  rw [slotLawIn_iff i, hself', hother', State.startComputation_engine, State.startComputation_working,
    (s.startComputation_drops i).acc]
  exact .start hacc hother

/-- With the engine idle the other set is not COMPUTING; busy, it is the other that is. -/
theorem State.busy_iff_of_status_ne {s : State} {i : Fin 2} (hi : (s.ctrl.sets.get i).status ≠ .computing) :
    s.busy = true ↔ (s.ctrl.sets.get (other i)).status = .computing := by
  rw [← not_iff_not, Bool.not_eq_true, State.busy_eq_false_iff]
  refine ⟨fun h => h (other i), fun h j => ?_⟩
  by_cases hj : j = i
  · exact hj ▸ hi
  · exact eq_other hj ▸ h

/-- A window closes: its computation starts, or it waits. -/
theorem slotLawIn_closeWindow {hold : Bool} {s : State} {i : Fin 2} (hi : s.ctrl.setWith .opened = some i)
    (hs : SlotLawIn hold s) : SlotLawIn hold (s.closeWindow hold i) := by
  have hopened := Controller.status_of_setWith hi
  have hbusy := State.busy_iff_of_status_ne (i := i) (by rw [hopened]; nofun)
  have hview := (slotLawIn_iff i).mp hs
  rw [hopened] at hview
  unfold State.closeWindow
  dsimp only
  split
  · rename_i hwaits
    obtain ⟨hself', hother'⟩ := s.ctrl.status_set i { s.ctrl.sets.get i with status := .waiting }
    rw [slotLawIn_iff i, State.putSet_ctrl, hself', hother']
    rw [Bool.or_eq_true, Bool.and_eq_true, hbusy] at hwaits
    exact hview.wait (hwaits.imp_right And.left)
  · rename_i hstarts
    refine slotLawIn_startComputation (.inl hview.running_of_opened) (.inl ?_)
    refine (hview.opened rfl).resolve_right fun hcomputing => hstarts ?_
    rw [hbusy.mpr hcomputing, Bool.true_or]

theorem slotLawIn_judgeClosure {hold : Bool} {s : State} (hs : SlotLawIn hold s) : SlotLawIn hold (s.judgeClosure hold) := by
  unfold State.judgeClosure
  split
  · rename_i i hi
    split
    · exact slotLawIn_closeWindow hi hs
    · exact hs
  · exact hs

/-! ## An accepted mark (R52) -/

/-- A window opens beside a set that is FREE or COMPUTING. -/
theorem SlotsAgree.open {hold : Bool} {phase : Phase} {working : Bool} {y : SetStatus}
    (h : SlotsAgree hold .running phase working .free y) (hy : y = .free ∨ y = .computing) :
    SlotsAgree hold .running phase working .opened y := by
  obtain ⟨hengine, hworking, -⟩ := h
  obtain rfl | rfl := hy
  · constructor <;> simp_all
  · constructor <;> simp_all

theorem slotLawIn_openWindow {hold : Bool} {s : State} (n : BitVec 32) (mark : Option CloseCause)
    (hacc : s.ctrl.acc = .running)
    (hsets : ∀ i, (s.ctrl.sets.get i).status = .free ∨ (s.ctrl.sets.get i).status = .computing)
    (hs : SlotLawIn hold s) : SlotLawIn hold (s.openWindow n mark) := by
  unfold State.openWindow
  split
  · rename_i j hj
    have hview := (slotLawIn_iff j).mp hs
    rw [hacc, Controller.status_of_setWith hj] at hview
    obtain ⟨hself', hother'⟩ := s.ctrl.status_set j { SlotSet.free with status := .opened, interval := n, mark := mark }
    rw [slotLawIn_iff j, State.putSet_ctrl, hself', hother', hacc]
    exact hview.open (hsets (other j))
  · exact hs

/-- A window that closes with the engine idle, outside a run of injected words, starts its computation. -/
theorem State.closeWindow_of_idle {s : State} (hbusy : s.busy = false) (i : Fin 2) : s.closeWindow false i =
    State.startComputation i { s with ctrl := { s.ctrl with lastClosed := (s.ctrl.sets.get i).interval } } := by
  simp only [State.closeWindow, hbusy, Bool.false_and, Bool.or_false, Bool.false_eq_true, if_false]

theorem State.closeWindow_status_of_idle {s : State} (hbusy : s.busy = false) (i : Fin 2) :
    (s.closeWindow false i).ctrl.acc = s.ctrl.acc ∧ ((s.closeWindow false i).ctrl.sets.get i).status = .computing ∧
      ((s.closeWindow false i).ctrl.sets.get (other i)).status = (s.ctrl.sets.get (other i)).status := by
  rw [State.closeWindow_of_idle hbusy]
  exact ⟨(State.startComputation_drops _ i).acc, State.startComputation_status _ i⟩

/-- The open window, if any, closed by deadline (R52). -/
def State.closedByMark (s : State) : State :=
  match s.ctrl.setWith .opened with
  | some i => s.closeWindow false i
  | none => s

theorem State.closedByMark_of_opened {s : State} {i : Fin 2} (h : s.ctrl.setWith .opened = some i) :
    s.closedByMark = s.closeWindow false i := by
  rw [State.closedByMark, h]

theorem State.closedByMark_of_none {s : State} (h : s.ctrl.setWith .opened = none) : s.closedByMark = s := by
  rw [State.closedByMark, h]

theorem State.acceptMark_eq (pmark : Bool) (s : State) : s.acceptMark pmark =
    let opened := s.closedByMark.openWindow s.ctrl.current (markOf pmark s.ctrl.closeLatch)
    State.judgeClosure false
      { opened with ctrl := { opened.ctrl with current := s.ctrl.current + 1, closeLatch := false } } := rfl

/-- The open window, if any, closed by deadline at a mark the engine is idle for: no window is open or waiting then. -/
theorem SlotLawIn.closed_by_mark {s : State} (hacc : s.ctrl.acc = .running) (hbusy : s.busy = false)
    (hs : SlotLawIn false s) :
    SlotLawIn false s.closedByMark ∧ s.closedByMark.ctrl.acc = .running ∧
      ∀ i, (s.closedByMark.ctrl.sets.get i).status = .free ∨ (s.closedByMark.ctrl.sets.get i).status = .computing := by
  have hidle := State.busy_eq_false_iff.mp hbusy
  cases hopened : s.ctrl.setWith .opened with
  | some i =>
    rw [State.closedByMark_of_opened hopened]
    have hfree : (s.ctrl.sets.get (other i)).status = .free :=
      (((slotLawIn_iff i).mp hs).opened (Controller.status_of_setWith hopened)).resolve_right (hidle (other i))
    obtain ⟨hacc', hself', hother'⟩ := State.closeWindow_status_of_idle hbusy i
    refine ⟨slotLawIn_closeWindow hopened hs, hacc'.trans hacc, fun j => ?_⟩
    by_cases hj : j = i
    · rw [hj]; exact .inr hself'
    · rw [eq_other hj]; exact .inl (hother'.trans hfree)
  | none =>
    rw [State.closedByMark_of_none hopened]
    refine ⟨hs, hacc, fun i => ?_⟩
    have hview := (slotLawIn_iff i).mp hs
    cases hstatus : (s.ctrl.sets.get i).status with
    | free => exact .inl rfl
    | computing => exact .inr rfl
    | opened => exact absurd hstatus (Controller.setWith_eq_none.mp hopened i)
    | waiting => exact absurd ((hview.waits hstatus).resolve_right fun h => nomatch h.1) (hidle (other i))

theorem slotLawIn_acceptMark {s : State} (pmark : Bool) (hacc : s.ctrl.acc = .running) (hbusy : s.busy = false)
    (hs : SlotLawIn false s) : SlotLawIn false (s.acceptMark pmark) := by
  obtain ⟨hclosed, hrunning, hsets⟩ := SlotLawIn.closed_by_mark hacc hbusy hs
  rw [State.acceptMark_eq]
  exact slotLawIn_judgeClosure (slotLawIn_congr rfl rfl rfl (fun _ => rfl)
    (slotLawIn_openWindow s.ctrl.current (markOf pmark s.ctrl.closeLatch) hrunning hsets hclosed))

/-! ## Stops and completions (R65, R66, R128) -/

theorem slotLawIn_applyMap {hold : Bool} {s : State} (hs : SlotLawIn hold s) : SlotLawIn hold s.applyMap :=
  slotLawIn_of_drops s.applyMap_drops (by simp) (by simp) hs

/-- The return to READY leaves the sets, the stage and the working copy, and the accounting state is READY. -/
theorem State.returnToReady_drops (s : State) : { s.ctrl with acc := .ready }.DropsOnly s.returnToReady.ctrl := by
  unfold State.returnToReady
  dsimp only
  split
  · exact State.applyMap_drops_of (by simp)
  · exact .refl _

/-- The engine idle, both sets FREE. -/
theorem SlotsAgree.all_free {hold : Bool} {acc : AccState} (hacc : acc ≠ .stopping) :
    SlotsAgree hold acc .idle false .free .free := by
  constructor <;> simp [hacc]

theorem slotLawIn_returnToReady {hold : Bool} {s : State} (hfree : ∀ i, (s.ctrl.sets.get i).status = .free)
    (hphase : s.engine.phase = .idle) (hworking : s.working = none) : SlotLawIn hold s.returnToReady := by
  have hdrops := s.returnToReady_drops
  unfold SlotLawIn
  rw [hdrops.acc, hdrops.status, hdrops.status, State.returnToReady_engine, State.returnToReady_working, hphase, hworking,
    hfree, hfree]
  exact .all_free nofun

/-- With no set OPEN, WAITING or COMPUTING every set is FREE. -/
theorem Controller.status_free_of_none {c : Controller} (hopened : c.setWith .opened = none)
    (hwaiting : c.setWith .waiting = none) (hcomputing : c.setWith .computing = none) (i : Fin 2) :
    (c.sets.get i).status = .free := by
  cases h : (c.sets.get i).status with
  | free => rfl
  | opened => exact absurd h (Controller.setWith_eq_none.mp hopened i)
  | waiting => exact absurd h (Controller.setWith_eq_none.mp hwaiting i)
  | computing => exact absurd h (Controller.setWith_eq_none.mp hcomputing i)

/-- A STOP leaves STOPPING with a computation in flight and no window open. -/
theorem slotLawIn_stopping {s : State} (hopened : s.ctrl.setWith .opened = none)
    (h : s.ctrl.setWith .waiting ≠ none ∨ s.ctrl.setWith .computing ≠ none) (hs : SlotLawIn false s) :
    SlotLawIn false (s.setAcc .stopping) := by
  have hno := Controller.setWith_eq_none.mp hopened
  have hcomputing : (s.ctrl.sets.get 0).status = .computing ∨ (s.ctrl.sets.get 1).status = .computing := by
    rw [← Fin.exists_fin_two (p := fun i => (s.ctrl.sets.get i).status = .computing)]
    obtain hwaiting | hcomputing := h
    · obtain ⟨i, hi⟩ := Controller.setWith_ne_none.mp hwaiting
      exact ⟨other i, (((slotLawIn_iff i).mp hs).waits hi).resolve_right fun h => nomatch h.1⟩
    · exact Controller.setWith_ne_none.mp hcomputing
  exact { hs with
    stopping := fun _ => ⟨hcomputing, hno 0, hno 1⟩
    idle := fun _ h => absurd rfl h }

/-- A STOP that closes the open window. -/
theorem slotLawIn_stopOpen {s : State} {i : Fin 2} (hacc : s.ctrl.acc = .running) (hi : s.ctrl.setWith .opened = some i)
    (hs : SlotLawIn false s) : SlotLawIn false ((s.setAcc .stopping).closeWindow false i) := by
  have hopened := Controller.status_of_setWith hi
  have hbusy := State.busy_iff_of_status_ne (s := s) (i := i) (by rw [hopened]; nofun)
  have hview := (slotLawIn_iff i).mp hs
  rw [hopened, hacc] at hview
  unfold State.closeWindow
  dsimp only
  split
  · rename_i hwaits
    have hcomputing : (s.ctrl.sets.get (other i)).status = .computing := by
      rw [Bool.false_and, Bool.or_false] at hwaits
      exact hbusy.mp hwaits
    obtain ⟨hself', hother'⟩ := s.ctrl.status_set i { s.ctrl.sets.get i with status := .waiting }
    rw [hcomputing] at hview hother'
    rw [slotLawIn_iff i, State.putSet_ctrl, State.setAcc_ctrl, hself', hother']
    obtain ⟨hengine, hworking, -⟩ := hview
    constructor <;> simp_all
  · rename_i hstarts
    refine slotLawIn_startComputation (.inr rfl) (.inl ?_)
    refine (hview.opened rfl).resolve_right fun hcomputing => hstarts ?_
    rw [Bool.false_and, Bool.or_false]
    exact hbusy.mpr hcomputing

/-- The engine idle and the set of a completed computation FREE, the other not waiting. -/
theorem SlotsAgree.freed {acc : AccState} {y : SetStatus} (h : SlotsAgree false acc .banked false .computing y)
    (hy : y ≠ .waiting) (hstop : acc = .stopping → y = .opened) : SlotsAgree false acc .idle false .free y := by
  have hrunning : acc = .running := by
    by_contra hrunning
    by_cases hacc : acc = .stopping
    · exact (h.stopping hacc).2.2 (hstop hacc)
    · exact nomatch (h.idle hrunning hacc).1
  have hone := h.one rfl
  constructor <;> simp_all

/-- What follows a completion: the set is FREE and the engine idle, the next computation starts, or a stop ends. -/
theorem slotLawIn_afterCompletion {s : State} {i : Fin 2} (hi : s.ctrl.setWith .computing = some i)
    (hphase : s.engine.phase = .banked) (hs : SlotLawIn false s) : SlotLawIn false (s.afterCompletion i) := by
  have hview := (slotLawIn_iff i).mp hs
  rw [Controller.status_of_setWith hi, hphase] at hview
  have hnone : s.working.isSome = false := hview.working.mp (.inr rfl)
  rw [hnone] at hview
  obtain ⟨hself', hother'⟩ := s.ctrl.status_set i .free
  have hacc : s.ctrl.acc = .running ∨ s.ctrl.acc = .stopping := by
    by_contra h
    push Not at h
    exact nomatch (hview.idle h.1 h.2).1
  unfold State.afterCompletion
  dsimp only
  split
  · rename_i j hj
    have hwaiting := Controller.status_of_setWith hj
    have hji : j = other i := eq_other fun h => by
      rw [State.putSet_ctrl, h, hself'] at hwaiting
      exact nomatch hwaiting
    subst hji
    refine slotLawIn_startComputation hacc (.inl ?_)
    rw [other_other]
    exact hself'
  · rename_i hwaiting
    have hnotwaiting := Controller.setWith_eq_none.mp hwaiting (other i)
    rw [State.putSet_ctrl, hother'] at hnotwaiting
    split
    · rename_i hstop
      have hopened := Controller.setWith_eq_none.mp (Option.isNone_iff_eq_none.mp hstop.2) (other i)
      rw [State.putSet_ctrl, hother'] at hopened
      have hfree : (s.ctrl.sets.get (other i)).status = .free := by
        cases h : (s.ctrl.sets.get (other i)).status with
        | free => rfl
        | opened => exact absurd h hopened
        | waiting => exact absurd h hnotwaiting
        | computing => exact absurd h (hview.one rfl)
      refine slotLawIn_returnToReady (fun j => ?_) rfl (Option.isNone_iff_eq_none.mp (Option.isSome_eq_false_iff.mp hnone))
      by_cases hj : j = i
      · rw [hj]; exact hself'
      · rw [eq_other hj]; exact hother'.trans hfree
    · rename_i hstop
      rw [slotLawIn_iff i]
      simp only [State.putSet_ctrl, State.putSet_working, hself', hother', hnone]
      refine hview.freed hnotwaiting fun hstopping => ?_
      by_contra hopened
      refine hstop ⟨hstopping, Option.isNone_iff_eq_none.mpr (Controller.setWith_eq_none.mpr fun j => ?_)⟩
      by_cases hj : j = i
      · rw [hj, State.putSet_ctrl, hself']; nofun
      · rw [eq_other hj, State.putSet_ctrl, hother']; exact hopened

/-! ## Every change keeps the law -/

/-- A stage of a computation in flight, followed by another that is neither idle nor banked, with the working copy kept. -/
theorem slotLawIn_stage {s t : State} {i : Fin 2} (hi : s.ctrl.setWith .computing = some i) (hctrl : t.ctrl = s.ctrl)
    (hworking : t.working.isSome = s.working.isSome) (hphase : s.engine.phase ≠ .banked)
    (hnext : t.engine.phase ≠ .idle ∧ t.engine.phase ≠ .banked) (hs : SlotLawIn false s) : SlotLawIn false t := by
  have hview := (slotLawIn_iff i).mp hs
  have hcomputing := Controller.status_of_setWith hi
  rw [slotLawIn_iff i, hctrl, hworking]
  refine { hview with
    engine := iff_of_false hnext.1 fun h => h.1 hcomputing
    working := iff_of_false (not_or_intro hnext.1 hnext.2) fun h => ?_ }
  obtain hidle | hbanked := hview.working.mpr h
  · exact (hview.engine.mp hidle).1 hcomputing
  · exact hphase hbanked

theorem State.publish_working (s : State) (mark : Option CloseCause) (t : ResultTable) :
    (s.publish mark t).working = none := by
  simp [State.publish]

theorem slotLawIn_bank {s : State} {i : Fin 2} (mark : Option CloseCause) (t : ResultTable)
    (hi : s.ctrl.setWith .computing = some i) (hs : SlotLawIn false s) :
    SlotLawIn false { s.publish mark t with engine := { (s.publish mark t).engine with phase := .banked } } := by
  have hview := (slotLawIn_iff i).mp hs
  have hcomputing := Controller.status_of_setWith hi
  rw [slotLawIn_iff i]
  simp only [State.publish_ctrl, State.publish_working]
  exact { hview with
    engine := iff_of_false nofun fun h => h.1 hcomputing
    working := iff_of_true (.inr rfl) rfl }

/-- While the accounting state is neither RUNNING nor STOPPING the sets are FREE, so another such state may follow. -/
theorem slotLawIn_setAcc {hold : Bool} {s t : State} (hrunning : s.ctrl.acc ≠ .running) (hstopping : s.ctrl.acc ≠ .stopping)
    (hnext : t.ctrl.acc ≠ .stopping) (hsets : t.ctrl.sets = s.ctrl.sets) (hengine : t.engine = s.engine)
    (hworking : t.working = s.working) (hs : SlotLawIn hold s) : SlotLawIn hold t := by
  unfold SlotLawIn at hs ⊢
  obtain ⟨h0, h1⟩ := hs.idle hrunning hstopping
  rw [hsets, hengine, hworking]
  exact { hs with
    stopping := fun h => absurd h hnext
    idle := fun _ _ => ⟨h0, h1⟩ }

theorem State.accountingReset_acc_ne_stopping (s : State) : s.accountingReset.ctrl.acc ≠ .stopping := by
  simp only [State.accountingReset, State.notify_ctrl]
  split <;> nofun

theorem slotLawIn_change {hold : Bool} {s t : State} (h : Change hold s t) (hs : SlotLawIn hold s) : SlotLawIn hold t := by
  cases h with
  | outside | port | notify | receiver | furnace | staged | plan | unsetSources | store =>
    exact slotLawIn_congr rfl rfl rfl (fun _ => rfl) hs
  | calendar => exact slotLawIn_congr rfl rfl rfl (fun _ => rfl) hs
  | errorEvent l e => exact slotLawIn_of_drops (s.errorEvent_drops l e) (by simp) (by simp) hs
  | clearLink l => exact slotLawIn_of_drops (State.rederive_drops (s.putLink l _) l) (by simp) (by simp) hs
  | slots i links lines mark =>
    refine slotLawIn_congr (s := s) rfl rfl rfl (fun j => ?_) hs
    rw [State.putSet_ctrl, Tab.get_set]
    split
    · subst_vars; rfl
    · rfl
  | apply => exact slotLawIn_applyMap hs
  | close i hi => exact slotLawIn_closeWindow hi hs
  | becomeReady hacc => exact slotLawIn_setAcc (s := s) (by simp [hacc]) (by simp [hacc]) nofun rfl rfl rfl hs
  | run hacc => exact slotLawIn_setAcc (s := s) (by simp [hacc]) (by simp [hacc]) nofun rfl rfl rfl hs
  | mark pmark hacc hbusy => exact slotLawIn_acceptMark pmark hacc hbusy hs
  | stopOpen i hacc hi => exact slotLawIn_stopOpen hacc hi hs
  | stopLater hacc hopened hlater => exact slotLawIn_stopping hopened hlater hs
  | swap c => exact slotLawIn_congr (by simp) (by simp) (by simp) (fun _ => by simp) hs
  | stopNow hacc hopened hwaiting hcomputing =>
    have hidle : s.engine.phase = .idle :=
      hs.engine.mpr (Fin.forall_fin_two.mp (Controller.setWith_eq_none.mp hcomputing))
    refine slotLawIn_returnToReady (Controller.status_free_of_none hopened hwaiting hcomputing) hidle ?_
    exact Option.isNone_iff_eq_none.mp (Option.isSome_eq_false_iff.mp (hs.working.mp (.inl hidle)))
  | accountingReset => exact .all_free s.accountingReset_acc_ne_stopping
  | endBooting hacc =>
    unfold State.endBooting
    split
    · exact slotLawIn_setAcc (s := s) (by simp [hacc]) (by simp [hacc]) nofun rfl rfl rfl hs
    · exact slotLawIn_setAcc (s := s) (by simp [hacc]) (by simp [hacc]) nofun rfl rfl rfl hs
  | pinReset => exact .all_free nofun
  | reconcile i hi hphase => exact slotLawIn_stage hi rfl (by simp [State.reconcile]) (by simp [hphase]) ⟨nofun, nofun⟩ hs
  | convert i hi hphase => exact slotLawIn_stage hi rfl (by simp [State.convertStage]) (by simp [hphase]) ⟨nofun, nofun⟩ hs
  | queue i hi hphase => exact slotLawIn_stage hi rfl (by simp [State.queueStage]) (by simp [hphase]) ⟨nofun, nofun⟩ hs
  | furnaceSplit i hi hphase =>
    exact slotLawIn_stage hi rfl (by simp [State.furnaceSplitStage]) (by simp [hphase]) ⟨nofun, nofun⟩ hs
  | poolSplit i hi hphase =>
    exact slotLawIn_stage hi rfl (by simp [State.poolSplitStage]) (by simp [hphase]) ⟨nofun, nofun⟩ hs
  | totals i hi hphase => exact slotLawIn_stage hi rfl (by simp [State.totalsStage]) (by simp [hphase]) ⟨nofun, nofun⟩ hs
  | bank i mark t hi => exact slotLawIn_bank mark t hi hs
  | finish i hi hphase => exact slotLawIn_afterCompletion hi hphase hs

/-- A run of injected words is entered under the law. -/
theorem SlotLawIn.enter {s : State} (hs : SlotLawIn false s) : SlotLawIn true s :=
  { hs with
    waits := fun h => .inl ((hs.waits h).resolve_right fun h => nomatch h.1)
    waits' := fun h => .inl ((hs.waits' h).resolve_right fun h => nomatch h.1) }

/-- A set that waits with the engine idle starts at the end of the run, so the law holds again. -/
theorem SlotLawIn.leave {s : State} (hs : SlotLawIn true s) : SlotLawIn false s.startWaiting := by
  unfold State.startWaiting
  split
  · rename_i i hi
    have hwaiting := Controller.status_of_setWith hi
    have hbusy := State.busy_iff_of_status_ne (i := i) (by rw [hwaiting]; nofun)
    have hview := (slotLawIn_iff i).mp hs
    rw [hwaiting] at hview
    have hacc : s.ctrl.acc = .running ∨ s.ctrl.acc = .stopping := by
      by_contra h
      push Not at h
      exact nomatch (hview.idle h.1 h.2).1
    split
    · rename_i hcomputing
      rw [slotLawIn_iff i, hwaiting]
      exact { hview with
        waits := fun _ => .inl (hbusy.mp hcomputing)
        waits' := fun h => absurd (h.symm.trans (hbusy.mp hcomputing)) nofun }
    · rename_i hidle
      exact slotLawIn_startComputation hacc (.inl ((hview.waits rfl).resolve_left fun h => hidle (hbusy.mpr h)).2)
  · rename_i hwaiting
    have hno := Controller.setWith_eq_none.mp hwaiting
    exact { hs with
      waits := fun h => absurd h (hno 0)
      waits' := fun h => absurd h (hno 1) }

theorem keptByChanges_slotLawIn : KeptByChanges SlotLawIn :=
  ⟨slotLawIn_change, SlotLawIn.enter, SlotLawIn.leave⟩

/-- Settles O59: the law holds through the changes of every step, with a waiting set allowed inside a run of injected words. -/
theorem everyStepKeepsTheSlotSets : Obligations.EveryStepKeepsTheSlotSets := fun _ _ hs hstep =>
  slotLaw_iff.mpr (keptByChanges_slotLawIn.step hstep (slotLaw_iff.mp hs))

end Sys2Proof.Machine
end

section
/-! PROOFS. Quarantine (R38, R42, R48): a link is quarantined exactly while a flag of the mask in force is set, kept by every change. -/

namespace Sys2Proof.Machine

/-- The law turns on the links and the map in force; a state that leaves BOOTING, or is not in it, owes the first half alone. -/
theorem quarantineLaw_congr {s t : State} (hlinks : t.links = s.links) (hactive : t.plant.active = s.plant.active)
    (hacc : t.ctrl.acc = .booting → s.ctrl.acc = .booting) (hs : s.quarantineLaw) : t.quarantineLaw := by
  unfold State.quarantineLaw
  rw [hlinks, hactive]
  exact ⟨hs.1, fun h => hs.2 (hacc h)⟩

/-- Links whose flags and quarantine states stand keep the law. -/
theorem quarantineLaw_of_links {s t : State} (hlinks : ∀ l, (t.links.get l).flags = (s.links.get l).flags ∧
    (t.links.get l).quarantined = (s.links.get l).quarantined) (hactive : t.plant.active = s.plant.active)
    (hacc : t.ctrl.acc = .booting → s.ctrl.acc = .booting) (hs : s.quarantineLaw) : t.quarantineLaw := by
  refine ⟨fun l => ?_, fun h => ⟨hactive.trans (hs.2 (hacc h)).1, fun l => (hlinks l).1.trans ((hs.2 (hacc h)).2 l)⟩⟩
  rw [(hlinks l).1, (hlinks l).2, hactive]
  exact hs.1 l

/-- The law in a state other than BOOTING. -/
def State.QuarantineRuns (s : State) : Prop := s.ctrl.acc ≠ .booting ∧ s.quarantineLaw

/-- A flag is set, and quarantine follows it; in BOOTING every link is off, so no event comes. -/
theorem quarantineLaw_errorEvent {s : State} (l : Fin 8) (e : ErrorKind) (hmode : (s.plant.active.links.get l).mode ≠ .off)
    (hs : s.quarantineLaw) : (s.errorEvent l e).quarantineLaw := by
  refine ⟨fun m => ?_, fun h => absurd ?_ hmode⟩
  · rw [State.errorEvent_links_get, State.errorEvent_plant]
    split
    · rfl
    · exact hs.1 m
  · rw [(hs.2 ((s.errorEvent_drops l e).acc.symm.trans h)).1]
    exact congrArg LinkEntry.mode (Tab.get_const ..)

theorem quarantineLaw_clearLink {s : State} (l : Fin 8) (hs : s.quarantineLaw) : (s.clearLink l).quarantineLaw := by
  have hget (m : Fin 8) : (s.clearLink l).links.get m = _ := State.rederive_links_get (s.putLink l _) l m
  have hacc : (s.clearLink l).ctrl.acc = s.ctrl.acc := (State.rederive_drops (s.putLink l _) l).acc
  refine ⟨fun m => ?_, fun h => ?_⟩
  · rw [hget, State.clearLink_plant]
    split
    · rfl
    · rw [State.putLink_links, Tab.get_set_ne _ ‹_›]
      exact hs.1 m
  · obtain ⟨hempty, hflags⟩ := hs.2 (hacc.symm.trans h)
    refine ⟨(congrArg (·.active) (s.clearLink_plant l)).trans hempty, fun m => ?_⟩
    rw [hget, State.putLink_links]
    split
    · rw [Tab.get_set_self]
    · rw [Tab.get_set_ne _ ‹_›]
      exact hflags m

/-- An apply derives every link anew (R17). -/
theorem State.QuarantineRuns.applyMap {s : State} (hs : s.QuarantineRuns) : s.applyMap.QuarantineRuns := by
  have hacc : s.applyMap.ctrl.acc ≠ .booting := fun h => hs.1 (s.applyMap_drops.acc.symm.trans h)
  refine ⟨hacc, fun l => ?_, fun h => absurd h hacc⟩
  rw [State.applyMap_links_get, State.applyMap_plant]

theorem State.QuarantineRuns.congr {s t : State} (hlinks : t.links = s.links) (hplant : t.plant = s.plant)
    (hacc : t.ctrl.acc = s.ctrl.acc) (hs : s.QuarantineRuns) : t.QuarantineRuns :=
  ⟨fun h => hs.1 (hacc.symm.trans h),
    quarantineLaw_congr hlinks (congrArg (·.active) hplant) (fun h => hacc.symm.trans h) hs.2⟩

theorem State.QuarantineRuns.startComputation {s : State} (i : Fin 2) (hs : s.QuarantineRuns) :
    (s.startComputation i).QuarantineRuns :=
  State.startComputation_preserves (P := State.QuarantineRuns) (hs.congr rfl rfl rfl) (·.applyMap) (·.congr rfl rfl rfl)
    (·.congr rfl rfl rfl)

theorem State.QuarantineRuns.closeWindow {s : State} (hold : Bool) (i : Fin 2) (hs : s.QuarantineRuns) :
    (s.closeWindow hold i).QuarantineRuns := by
  unfold State.closeWindow
  dsimp only
  split
  · exact hs.congr rfl rfl rfl
  · exact State.QuarantineRuns.startComputation i (hs.congr rfl rfl rfl)

theorem State.QuarantineRuns.judgeClosure {s : State} (hold : Bool) (hs : s.QuarantineRuns) :
    (s.judgeClosure hold).QuarantineRuns := by
  unfold State.judgeClosure
  split
  · split
    · exact hs.closeWindow hold _
    · exact hs
  · exact hs

theorem State.QuarantineRuns.acceptMark {s : State} (pmark : Bool) (hs : s.QuarantineRuns) :
    (s.acceptMark pmark).QuarantineRuns := by
  unfold State.acceptMark
  dsimp only
  apply State.QuarantineRuns.judgeClosure
  have hopen {t : State} (ht : t.QuarantineRuns) (n : BitVec 32) (mark : Option CloseCause) :
      (t.openWindow n mark).QuarantineRuns := by
    unfold State.openWindow
    split
    · exact ht.congr rfl rfl rfl
    · exact ht
  split
  · exact State.QuarantineRuns.congr rfl rfl rfl (hopen (hs.closeWindow false _) s.ctrl.current _)
  · exact State.QuarantineRuns.congr rfl rfl rfl (hopen hs s.ctrl.current _)

theorem State.QuarantineRuns.returnToReady {s : State} (hs : s.quarantineLaw) : s.returnToReady.QuarantineRuns := by
  have hready : (((s.setAcc .ready).notify .stopped).applyPendingLags).QuarantineRuns :=
    ⟨nofun, quarantineLaw_congr (s := s) rfl rfl nofun hs⟩
  unfold State.returnToReady
  dsimp only
  split
  · exact hready.applyMap
  · exact hready

theorem State.QuarantineRuns.afterCompletion {s : State} (i : Fin 2) (hs : s.QuarantineRuns) :
    (s.afterCompletion i).QuarantineRuns := by
  have hfree : ({ s.putSet i .free with engine := .idle } : State).QuarantineRuns := hs.congr rfl rfl rfl
  unfold State.afterCompletion
  dsimp only
  split
  · exact State.QuarantineRuns.startComputation _ hfree
  · split
    · exact State.QuarantineRuns.returnToReady hfree.2
    · exact hfree

/-- At the end of BOOTING no flag is set, so no mask quarantines a link. -/
theorem quarantineLaw_endBooting {s : State} (hacc : s.ctrl.acc = .booting) (hs : s.quarantineLaw) :
    s.endBooting.quarantineLaw := by
  obtain ⟨-, hflags⟩ := hs.2 hacc
  have hclear (mask : PerKind Bool) (l : Fin 8) : (s.links.get l).quarantined = covered (s.links.get l).flags mask := by
    rw [hs.1 l, hflags l]
    rfl
  unfold State.endBooting
  split
  · exact ⟨fun l => hclear _ l, nofun⟩
  · exact ⟨fun l => hclear _ l, nofun⟩

theorem State.accountingReset_acc_ne_booting (s : State) : s.accountingReset.ctrl.acc ≠ .booting := by
  simp only [State.accountingReset, State.notify_ctrl]
  split <;> nofun

/-- In BOOTING every set is FREE. -/
theorem SlotLawIn.acc_ne_booting {hold : Bool} {s : State} {i : Fin 2} (hs : SlotLawIn hold s)
    (hi : (s.ctrl.sets.get i).status ≠ .free) : s.ctrl.acc ≠ .booting := fun h =>
  hi (((slotLawIn_iff i).mp hs).idle (by simp [h]) (by simp [h])).1

theorem SlotLawIn.acc_ne_booting_of_setWith {hold : Bool} {s : State} {i : Fin 2} {st : SetStatus} (hs : SlotLawIn hold s)
    (hi : s.ctrl.setWith st = some i) (hst : st ≠ .free) : s.ctrl.acc ≠ .booting :=
  hs.acc_ne_booting (i := i) ((Controller.status_of_setWith hi).trans_ne hst)

theorem quarantineLaw_change {hold : Bool} {s t : State} (h : Change hold s t) (hslots : SlotLawIn hold s)
    (hs : s.quarantineLaw) : t.quarantineLaw := by
  have runs {st : SetStatus} {i : Fin 2} (hi : s.ctrl.setWith st = some i) (hst : st ≠ .free) : s.QuarantineRuns :=
    ⟨hslots.acc_ne_booting_of_setWith hi hst, hs⟩
  cases h with
  | outside | port | notify | furnace | staged | plan | unsetSources | store | slots | calendar =>
    exact quarantineLaw_congr (s := s) rfl rfl id hs
  | receiver l rx =>
    refine quarantineLaw_of_links (s := s) (fun m => ?_) rfl id hs
    rw [State.putLink_links, Tab.get_set]
    split
    · subst_vars; exact ⟨rfl, rfl⟩
    · exact ⟨rfl, rfl⟩
  | errorEvent l e hmode => exact quarantineLaw_errorEvent l e hmode hs
  | clearLink l => exact quarantineLaw_clearLink l hs
  | apply hacc => exact (State.QuarantineRuns.applyMap ⟨hacc, hs⟩).2
  | close i hi => exact ((runs hi nofun).closeWindow hold i).2
  | becomeReady | run | stopLater => exact quarantineLaw_congr (s := s) rfl rfl nofun hs
  | mark pmark hacc => exact (State.QuarantineRuns.acceptMark pmark ⟨by simp [hacc], hs⟩).2
  | stopOpen i hacc =>
    have hstopping : (s.setAcc .stopping).QuarantineRuns := ⟨nofun, quarantineLaw_congr (s := s) rfl rfl nofun hs⟩
    exact (hstopping.closeWindow false i).2
  | swap c => exact quarantineLaw_congr (by simp) (by simp) (fun h => by simpa using h) hs
  | stopNow => exact (State.QuarantineRuns.returnToReady hs).2
  | accountingReset =>
    exact quarantineLaw_congr (s := s) rfl rfl (fun h => absurd h s.accountingReset_acc_ne_booting) hs
  | endBooting hacc => exact quarantineLaw_endBooting hacc hs
  | pinReset =>
    have hlink (l : Fin 8) : State.reset.links.get l = _ := Tab.get_const ..
    refine ⟨fun l => ?_, fun _ => ⟨rfl, fun l => ?_⟩⟩
    · dsimp only
      rw [hlink]
      rfl
    · dsimp only
      rw [hlink]
      rfl
  | reconcile | convert | queue | furnaceSplit | poolSplit | totals => exact quarantineLaw_congr (s := s) rfl rfl id hs
  | bank i mark t => exact quarantineLaw_congr (s := s) (by simp) (by simp) (fun h => by simpa using h) hs
  | finish i hi => exact ((runs hi nofun).afterCompletion i).2

/-- The slot sets' law and the quarantine law. -/
theorem keptByChanges_quarantineLaw : KeptByChanges fun hold s => SlotLawIn hold s ∧ s.quarantineLaw where
  change h hs := ⟨slotLawIn_change h hs.1, quarantineLaw_change h hs.1 hs.2⟩
  enter hs := ⟨hs.1.enter, hs.2⟩
  leave {s} hs := by
    refine ⟨hs.1.leave, ?_⟩
    unfold State.startWaiting
    split
    · rename_i i hi
      split
      · exact hs.2
      · exact (State.QuarantineRuns.startComputation i ⟨hs.1.acc_ne_booting_of_setWith hi nofun, hs.2⟩).2
    · exact hs.2

/-- Settles O57: quarantine follows the flags through every change; the slot sets' law keeps an apply out of BOOTING. -/
theorem everyStepKeepsQuarantine : Obligations.EveryStepKeepsQuarantine := fun _ _ hslots hs hstep =>
  (keptByChanges_quarantineLaw.step hstep ⟨slotLaw_iff.mp hslots, hs⟩).2

end Sys2Proof.Machine
end

section
/-! PROOFS. The bounds (R69, R89, R102, R106, R160, R166, R177): the image area, residues, ports, queues, lags, maps and run counts stay
within theirs through every change. -/

namespace Sys2Proof.Machine

/-! ## The bounds of one block -/

/-- A run count is at most 15, and 0 outside ESTIMATING (R69, R84). -/
def SrcHead.Bounded (h : SrcHead) : Prop := h.run ≤ 15 ∧ (h.state ≠ .estimating → h.run = 0)

theorem SrcHead.bounded_toUnset (h : SrcHead) : h.toUnset.Bounded := ⟨Nat.zero_le 15, fun _ => rfl⟩

theorem SrcHead.bounded_delivered (n : BitVec 32) (q : Quality) : (SrcHead.delivered n q).Bounded := ⟨Nat.zero_le 15, fun _ => rfl⟩

/-- A source not delivered counts up to the hold limit at most (R78). -/
theorem SrcHead.bounded_missed {x : SrcHead} {h : Nat} (hlimit : h ≤ 15) (n : BitVec 32) (hx : x.Bounded) :
    (x.missed h n).Bounded := by
  obtain ⟨hrun, hzero⟩ := hx
  unfold SrcHead.missed
  split
  case h_1 hstate => exact ⟨hrun, fun _ => hzero (by simp [hstate])⟩
  case h_2 =>
    split
    · exact ⟨Nat.le_add_left 1 14, fun h => absurd rfl h⟩
    · exact ⟨Nat.zero_le 15, fun _ => rfl⟩
  case h_3 =>
    split
    · exact ⟨by dsimp only; omega, fun h => absurd rfl h⟩
    · exact ⟨Nat.zero_le 15, fun _ => rfl⟩
  case h_4 hstate => exact ⟨hrun, fun _ => hzero (by simp [hstate])⟩

theorem PointRecord.bounded_reconcile {r : PointRecord} {h : Nat} (hlimit : h ≤ 15) (step : Nat) (n : BitVec 32)
    (reading : Option Reading) (hr : r.head.Bounded) : (r.reconcile h step n reading).head.Bounded := by
  cases reading with
  | some x => exact SrcHead.bounded_delivered ..
  | none => exact SrcHead.bounded_missed hlimit n hr

theorem LineRecord.bounded_reconcile {r : LineRecord} {h : Nat} (hlimit : h ≤ 15) (step : Nat) (n : BitVec 32) (st : LineState)
    (tally : Option Tally) (hr : r.head.Bounded) : (r.reconcile h step n st tally).head.Bounded := by
  unfold LineRecord.reconcile
  split
  · exact SrcHead.bounded_delivered ..
  · split
    · exact hr
    · exact SrcHead.bounded_missed hlimit n hr

/-- Every run count of the table is within its bounds. -/
structure SourceTable.Bounded (t : SourceTable) : Prop where
  points : ∀ p, (t.points.get p).head.Bounded
  lines  : ∀ l, (t.lines.get l).head.Bounded

theorem SourceTable.bounded_allUnset (t : SourceTable) : t.allUnset.Bounded where
  points p := by rw [SourceTable.allUnset, Tab.get_mapIdx]; exact SrcHead.bounded_toUnset _
  lines l := by rw [SourceTable.allUnset, Tab.get_mapIdx]; exact SrcHead.bounded_toUnset _

theorem SourceTable.bounded_reconcile {t : SourceTable} {m : PlantMap} (hlimit : m.global.holdLimit ≤ 15) (e : Engine)
    (w : SlotSet) (ht : t.Bounded) : (t.reconcile m e w).Bounded where
  points p := by
    rw [SourceTable.reconcile, Tab.get_mapIdx]
    split
    · exact PointRecord.bounded_reconcile hlimit _ _ _ (ht.points p)
    · exact ht.points p
  lines l := by
    rw [SourceTable.reconcile, Tab.get_mapIdx]
    split
    · exact LineRecord.bounded_reconcile hlimit _ _ _ _ (ht.lines l)
    · exact ht.lines l

/-- A queue of at most 63 records of 40-bit energies, and lags of at most 63 (R102, R106). -/
structure Furnace.Bounded (x : Furnace) : Prop where
  length  : x.queue.length ≤ 63
  lag     : x.lag ≤ 63
  pending : ∀ l, x.pendingLag = some l → l ≤ 63
  records : ∀ r ∈ x.queue, ∀ c, r.energy.get c ≤ 1099511627775

theorem Furnace.bounded_empty {x : Furnace} (hx : x.Bounded) : ({ x with queue := [] } : Furnace).Bounded where
  length := Nat.zero_le 63
  lag := hx.lag
  pending := hx.pending
  records _ h := nomatch h

/-- After the residence queue stage no more records than the lag remain, or the queue stands (R105 to R107). -/
theorem Furnace.bounded_queueEffect {x : Furnace} (n : BitVec 32) (st : FurnaceState) (direct : Kj) (q : Quality)
    (hx : x.Bounded) : ({ x with queue := (queueEffect n st direct q x).queue } : Furnace).Bounded := by
  have hlag := hx.lag
  cases st with
  | melt =>
    refine ⟨?_, hx.lag, hx.pending, fun r hr c => ?_⟩
    · simp only [queueEffect, releaseCount, List.length_drop]
      omega
    · obtain hold | hnew := List.mem_append.mp (List.mem_of_mem_drop hr)
      · exact hx.records r hold c
      · rw [List.mem_singleton.mp hnew, newRecord, Kj.get_limit]
        exact Nat.min_le_right _ _
  | hold => exact hx
  | heatup => exact hx

theorem convert_residue_lt (curves : Tab 8 CurveEntry) (e : PointEntry) (c : Nat) {r : Nat} (hr : r < 65536) :
    (convert curves e c r).residue < 65536 := by
  unfold convert
  split
  · exact hr
  · exact Nat.mod_lt _ (Nat.zero_lt_succ _)

/-! ## The bounds of the state -/

/-- The bounds of every block. -/
structure State.Bounded (s : State) : Prop where
  image    : Image.wf s.store.image
  residues : ∀ p, s.residues.get p < 65536
  ports    : ∀ p, (s.ports.get p).Settled
  furnaces : ∀ f, (s.furnaces.get f).Bounded
  staged   : s.plant.staged.inRange
  active   : s.plant.active.inRange
  sources  : s.sources.Bounded

theorem State.bounded_iff {s : State} : s.Bounded ↔ s.memoryLaw ∧ s.portLaw ∧ s.queueLaw ∧ s.rangeLaw := by
  constructor
  · intro h
    exact ⟨⟨h.image, h.residues⟩, State.portLaw_iff.mpr h.ports,
      fun f => ⟨(h.furnaces f).length, (h.furnaces f).lag, (h.furnaces f).pending, (h.furnaces f).records⟩,
      h.staged, h.active, h.sources.points, h.sources.lines⟩
  · rintro ⟨⟨himage, hresidues⟩, hports, hqueues, hstaged, hactive, hpoints, hlines⟩
    refine ⟨himage, hresidues, State.portLaw_iff.mp hports, fun f => ?_, hstaged, hactive, hpoints, hlines⟩
    obtain ⟨hlength, hlag, hpending, hrecords⟩ := hqueues f
    exact ⟨hlength, hlag, hpending, hrecords⟩

/-- A notice changes no port's decoder, buffer or SDO record. -/
theorem PortUnit.settled_notify {u : PortUnit} (n : Notice) (h : u.Settled) : (u.notify n).Settled := ⟨h.decoder, h.buffer⟩

theorem Ports.settled_notify {p : Ports} (n : Notice) (h : ∀ w, (p.get w).Settled) (w : Port) :
    ((p.notify n).get w).Settled := by
  cases w with
  | m => exact PortUnit.settled_notify n (h .m)
  | f => exact PortUnit.settled_notify n (h .f)
  | e => exact PortUnit.settled_notify n (h .e)

namespace State.Bounded

variable {s t : State}

/-- The bounds turn on the store, the residues, the ports, the furnaces, the maps and the sources. -/
theorem congr (hs : s.Bounded) (hstore : t.store = s.store) (hresidues : t.residues = s.residues) (hports : t.ports = s.ports)
    (hfurnaces : t.furnaces = s.furnaces) (hplant : t.plant = s.plant) (hsources : t.sources = s.sources) :
    t.Bounded where
  image := hstore ▸ hs.image
  residues := hresidues ▸ hs.residues
  ports := hports ▸ hs.ports
  furnaces := hfurnaces ▸ hs.furnaces
  staged := hplant ▸ hs.staged
  active := hplant ▸ hs.active
  sources := hsources ▸ hs.sources

theorem notify (n : Notice) (hs : s.Bounded) : (s.notify n).Bounded :=
  { hs with ports := Ports.settled_notify n hs.ports }

theorem notifyIf (b : Bool) (n : Notice) (hs : s.Bounded) : (s.notifyIf b n).Bounded := by
  cases b
  · exact hs
  · exact hs.notify n

theorem onPort (p : Port) {g : PortUnit → PortUnit} (hg : ∀ u, u.Settled → (g u).Settled) (hs : s.Bounded) :
    (s.onPort p g).Bounded := by
  refine { hs with ports := fun w => ?_ }
  by_cases hw : p = w
  · subst hw
    rw [State.onPort_ports, Ports.get_put_self]
    exact hg _ (hs.ports p)
  · rw [State.onPort_ports, Ports.get_put_ne _ hw]
    exact hs.ports w

theorem putFurnace (f : Fin 4) {x : Furnace} (hx : x.Bounded) (hs : s.Bounded) : (s.putFurnace f x).Bounded := by
  refine { hs with furnaces := fun g => ?_ }
  rw [State.putFurnace_furnaces, Tab.get_set]
  split
  · exact hx
  · exact hs.furnaces g

theorem rederive (l : Fin 8) (hs : s.Bounded) : (s.rederive l).Bounded := by
  refine hs.congr (by simp) (by simp) (by simp) (by simp) (by simp) (by simp)

theorem errorEvent (l : Fin 8) (e : ErrorKind) (hs : s.Bounded) : (s.errorEvent l e).Bounded := by
  unfold State.errorEvent
  dsimp only
  exact rederive l (notifyIf _ _ (hs.congr rfl rfl rfl rfl rfl rfl))

theorem retireFurnace (f : Fin 4) (hs : s.Bounded) : (s.retireFurnace f).Bounded :=
  notifyIf _ _ (putFurnace f (Furnace.bounded_empty (hs.furnaces f)) (hs.congr rfl rfl rfl rfl rfl rfl))

/-- An apply: the staged map's ranges become the active map's. -/
theorem applyMap (hs : s.Bounded) : s.applyMap.Bounded := by
  have hcleared : (({ s with plant := ⟨s.plant.staged, s.plant.staged, false⟩ } : State).clearChangedSources
      s.plant.active s.plant.staged).Bounded := by
    refine { hs with residues := fun p => ?_, active := hs.staged, sources := ⟨fun p => ?_, fun l => ?_⟩ }
    · rw [State.clearChangedSources, Tab.get_mapIdx]
      split
      · exact Nat.zero_lt_succ _
      · exact hs.residues p
    · rw [State.clearChangedSources, Tab.get_mapIdx]
      split
      · exact SrcHead.bounded_toUnset _
      · exact hs.sources.points p
    · rw [State.clearChangedSources, Tab.get_mapIdx]
      split
      · exact SrcHead.bounded_toUnset _
      · exact hs.sources.lines l
  have hretired := State.retireFurnaces_preserves (P := State.Bounded) (fun _ f h => h.retireFurnace f) s.plant.active
    s.plant.staged hcleared
  have hreset := hretired.congr (t := State.resetChangedLinks s.plant.active s.plant.staged _) rfl rfl rfl rfl rfl rfl
  exact (foldl_preserves (P := State.Bounded) (fun _ l h => h.rederive l) _ hreset).notify _

theorem applyPendingLags (hs : s.Bounded) : s.applyPendingLags.Bounded := by
  refine { hs with furnaces := fun f => ?_ }
  have hf := hs.furnaces f
  rw [State.applyPendingLags, Tab.get_mapIdx]
  split
  · rename_i l hl
    exact { hf with lag := hf.pending l hl, pending := nofun }
  · exact hf

theorem startComputation (i : Fin 2) (hs : s.Bounded) : (s.startComputation i).Bounded :=
  State.startComputation_preserves (P := State.Bounded) (hs.congr rfl rfl rfl rfl rfl rfl) (·.applyMap) (·.applyPendingLags)
    (·.congr rfl rfl rfl rfl rfl rfl)

theorem closeWindow (hold : Bool) (i : Fin 2) (hs : s.Bounded) : (s.closeWindow hold i).Bounded := by
  unfold State.closeWindow
  dsimp only
  split
  · exact hs.congr rfl rfl rfl rfl rfl rfl
  · exact startComputation i (hs.congr rfl rfl rfl rfl rfl rfl)

theorem judgeClosure (hold : Bool) (hs : s.Bounded) : (s.judgeClosure hold).Bounded := by
  unfold State.judgeClosure
  split
  · split
    · exact hs.closeWindow hold _
    · exact hs
  · exact hs

theorem openWindow (n : BitVec 32) (mark : Option CloseCause) (hs : s.Bounded) : (s.openWindow n mark).Bounded :=
  hs.congr (by simp) (by simp) (by simp) (by simp) (by simp) (by simp)

theorem acceptMark (pmark : Bool) (hs : s.Bounded) : (s.acceptMark pmark).Bounded := by
  unfold State.acceptMark
  dsimp only
  apply judgeClosure
  split
  · exact ((hs.closeWindow false _).openWindow s.ctrl.current (markOf pmark s.ctrl.closeLatch)).congr rfl rfl rfl rfl rfl rfl
  · exact (hs.openWindow s.ctrl.current (markOf pmark s.ctrl.closeLatch)).congr rfl rfl rfl rfl rfl rfl

theorem returnToReady (hs : s.Bounded) : s.returnToReady.Bounded := by
  have hready : (((s.setAcc .ready).notify .stopped).applyPendingLags).Bounded :=
    ((hs.congr (t := s.setAcc .ready) rfl rfl rfl rfl rfl rfl).notify _).applyPendingLags
  unfold State.returnToReady
  dsimp only
  split
  · exact hready.applyMap
  · exact hready

theorem afterCompletion (i : Fin 2) (hs : s.Bounded) : (s.afterCompletion i).Bounded := by
  have hfree : ({ s.putSet i .free with engine := .idle } : State).Bounded := hs.congr rfl rfl rfl rfl rfl rfl
  unfold State.afterCompletion
  dsimp only
  split
  · exact hfree.startComputation _
  · split
    · exact hfree.returnToReady
    · exact hfree

theorem publish (mark : Option CloseCause) (t : ResultTable) (hs : s.Bounded) : (s.publish mark t).Bounded := by
  unfold State.publish State.completionNotices
  dsimp only
  refine notifyIf _ _ (notifyIf _ _ (notifyIf _ _ (notifyIf _ _ (notify _ ?_))))
  exact hs.congr rfl rfl rfl rfl rfl rfl

theorem accountingReset (hs : s.Bounded) : s.accountingReset.Bounded := by
  refine notify _ { hs with residues := fun p => ?_, furnaces := fun f => ?_, sources := s.sources.bounded_allUnset }
  · rw [Tab.get_const]
    exact Nat.zero_lt_succ _
  · rw [Tab.get_mapIdx]
    exact Furnace.bounded_empty (hs.furnaces f)

theorem convertStage (i : Fin 2) (hs : s.Bounded) : (s.convertStage i).Bounded := by
  refine { hs with residues := fun p => ?_ }
  rw [State.convertStage, Tab.get_mapIdx, pointResults, Tab.get_ofFn]
  split
  · rename_i x hx
    split at hx
    · cases hx
      exact convert_residue_lt _ _ _ (hs.residues p)
    · cases hx
  · exact hs.residues p

theorem queueStage (i : Fin 2) (hs : s.Bounded) : (s.queueStage i).Bounded := by
  refine { hs with furnaces := fun f => ?_ }
  rw [State.queueStage, Tab.get_mapIdx, Tab.get_ofFn, State.queueEffectAt]
  split
  · rename_i y hy
    split at hy
    · cases hy
      exact Furnace.bounded_queueEffect _ _ _ _ (hs.furnaces f)
    · cases hy
  · exact hs.furnaces f

end State.Bounded

theorem PlantMap.empty_inRange : PlantMap.empty.inRange := by
  refine PlantMap.inRange_iff.mpr ⟨?_, fun l => ?_, fun p => ?_, fun f => ?_, fun l => ?_, fun c => ?_⟩
  · exact ⟨by decide, by decide, by decide⟩
  · rw [PlantMap.empty, Tab.get_const]
    exact ⟨by decide, by decide, by decide⟩
  · rw [PlantMap.empty, Tab.get_const]
    exact ⟨by decide, by decide, by decide⟩
  · rw [PlantMap.empty, Tab.get_const]
    exact ⟨by decide, by decide⟩
  · rw [PlantMap.empty, Tab.get_const]
    exact ⟨by decide, by decide, by decide, by decide, fun p => by rw [Tab.get_const]; decide⟩
  · rw [PlantMap.empty, Tab.get_const]
    exact fun s => by rw [Tab.get_const]; decide

/-- Every block right after reset is within its bounds. -/
theorem State.bounded_reset : State.reset.Bounded where
  image := State.reset_image_wf
  residues p := by rw [State.reset, Tab.get_const]; exact Nat.zero_lt_succ _
  ports p := by cases p <;> exact ⟨.inl rfl, List.length_replicate ..⟩
  furnaces f := by
    rw [State.reset, Tab.get_const]
    exact ⟨Nat.zero_le 63, Nat.zero_le 63, nofun, nofun⟩
  staged := PlantMap.empty_inRange
  active := PlantMap.empty_inRange
  sources := by
    refine ⟨fun p => ?_, fun l => ?_⟩
    · rw [State.reset, SourceTable.reset, Tab.get_const]
      exact ⟨Nat.zero_le 15, fun _ => rfl⟩
    · rw [State.reset, SourceTable.reset, Tab.get_const]
      exact ⟨Nat.zero_le 15, fun _ => rfl⟩

/-- A good image holds fields in range and lags of at most 63 (R178, R179). -/
theorem State.Bounded.endBooting {s : State} (hs : s.Bounded) : s.endBooting.Bounded := by
  unfold State.endBooting
  split
  · rename_i m lags hgood
    obtain ⟨hmap, hlags⟩ := judgeImage_good_inRange hgood
    refine { hs with furnaces := fun f => ?_, staged := hmap, active := hmap }
    rw [Tab.get_mapIdx]
    exact { hs.furnaces f with lag := hlags f }
  · refine State.Bounded.notify _
      { hs with furnaces := fun f => ?_, staged := PlantMap.empty_inRange, active := PlantMap.empty_inRange }
    rw [Tab.get_mapIdx]
    exact { hs.furnaces f with lag := Nat.zero_le 63 }

theorem State.bounded_change {hold : Bool} {s t : State} (h : Change hold s t) (hs : s.Bounded) : t.Bounded := by
  cases h with
  | outside | receiver | slots | calendar | becomeReady | run | stopLater | furnaceSplit | poolSplit | totals =>
    exact hs.congr rfl rfl rfl rfl rfl rfl
  | port p g hg => exact hs.onPort p hg
  | notify n => exact hs.notify n
  | errorEvent l e => exact hs.errorEvent l e
  | clearLink l => exact State.Bounded.rederive l (hs.congr rfl rfl rfl rfl rfl rfl)
  | furnace f st lag pending hlag hpending =>
    have hf := hs.furnaces f
    refine hs.putFurnace f { hf with lag := ?_, pending := ?_ }
    · exact hlag.elim (fun h => h ▸ hf.lag) id
    · exact hpending.elim (fun h => h ▸ hf.pending) id
  | staged m hm => exact { hs with staged := hm hs.staged hs.active }
  | plan => exact { hs with }
  | apply => exact hs.applyMap
  | close i => exact hs.closeWindow hold i
  | unsetSources => exact { hs with sources := s.sources.bounded_allUnset }
  | mark pmark => exact hs.acceptMark pmark
  | stopOpen i => exact State.Bounded.closeWindow false i (hs.congr rfl rfl rfl rfl rfl rfl)
  | swap c => exact State.Bounded.notify _ (hs.congr rfl rfl rfl rfl rfl rfl)
  | stopNow => exact hs.returnToReady
  | accountingReset => exact hs.accountingReset
  | store st hst => exact { hs with image := hst hs.image }
  | endBooting => exact hs.endBooting
  | pinReset => exact { State.bounded_reset with image := hs.image }
  | reconcile i => exact { hs with sources := SourceTable.bounded_reconcile hs.active.holdLimit _ _ hs.sources }
  | convert i => exact hs.convertStage i
  | queue i => exact hs.queueStage i
  | bank i mark t => exact (hs.publish mark t).congr rfl rfl rfl rfl rfl rfl
  | finish i => exact hs.afterCompletion i

theorem keptByChanges_bounded : KeptByChanges fun _ s => s.Bounded where
  change := State.bounded_change
  enter hs := hs
  leave hs := by
    unfold State.startWaiting
    split
    · split
      · exact hs
      · exact hs.startComputation _
    · exact hs

/-- Settles O58: every block stays within its bounds through every change. -/
theorem everyStepKeepsTheBounds : Obligations.EveryStepKeepsTheBounds := fun _ _ hmemory hport hqueue hrange hstep =>
  State.bounded_iff.mp (keptByChanges_bounded.step hstep (State.bounded_iff.mpr ⟨hmemory, hport, hqueue, hrange⟩))

end Sys2Proof.Machine
end

section
/-! PROOFS. The furnace balance of R150: what has entered a furnace's accounts in a period is what has left them and what is in its
queue. -/

namespace Sys2Proof.Machine

/-! ## A bank within 48 bits settles unchanged (R148) -/

theorem Kj.limit_of_above_eq_false {m : Nat} {k : Kj} (h : k.above m = false) : k.limit m = k := by
  ext c
  have hc : ¬ m < k.get c := fun hc => by
    rw [Kj.above_eq_true_iff.mpr ⟨c, hc⟩] at h
    exact nomatch h
  rw [Kj.get_limit]
  omega

theorem min_of_decide_lt_eq_false {m n : Nat} (h : decide (m < n) = false) : min n m = n :=
  Nat.min_eq_left (Nat.le_of_not_lt (of_decide_eq_false h))

theorem FurnaceRecord.limit_of_above_eq_false {r : FurnaceRecord} (h : r.above = false) : r.limit = r := by
  simp only [FurnaceRecord.above, List.any_cons, List.any_nil, Bool.or_false, Bool.or_eq_false_iff] at h
  obtain ⟨⟨hmetered, hattributed, hnoPull, hhold, hheatup⟩, hpull⟩ := h
  simp only [FurnaceRecord.limit, Kj.limit_of_above_eq_false, min_of_decide_lt_eq_false, hmetered, hattributed, hnoPull,
    hhold, hheatup, hpull]

theorem LineBankRecord.limit_of_above_eq_false {r : LineBankRecord} (h : r.above = false) : r.limit = r := by
  simp only [LineBankRecord.above, List.any_cons, List.any_nil, Bool.or_false, Bool.or_eq_false_iff] at h
  obtain ⟨⟨⟨hshare, hdirect, hpool⟩, hgross⟩, hpacked⟩ := h
  simp only [LineBankRecord.limit, Kj.limit_of_above_eq_false, min_of_decide_lt_eq_false, hshare, hdirect, hpool, hgross,
    hpacked]

theorem PoolRecord.limit_of_above_eq_false {r : PoolRecord} (h : r.above = false) : r.limit = r := by
  simp only [PoolRecord.above, List.any_cons, List.any_nil, Bool.or_false, Bool.or_eq_false_iff] at h
  obtain ⟨hmetered, hshared, hunattributed⟩ := h
  simp only [PoolRecord.limit, Kj.limit_of_above_eq_false, hmetered, hshared, hunattributed]

theorem PlantRecord.limit_of_above_eq_false {r : PlantRecord} (h : r.above = false) : r.limit = r := by
  simp only [PlantRecord.above, List.any_cons, List.any_nil, Bool.or_false, Bool.or_eq_false_iff] at h
  obtain ⟨⟨⟨hmetered, hmonitor, hunattributed⟩, hgross⟩, hpacked⟩ := h
  simp only [PlantRecord.limit, Kj.limit_of_above_eq_false, min_of_decide_lt_eq_false, hmetered, hmonitor, hunattributed,
    hgross, hpacked]

/-- A bank with no accumulator above 48 bits settles unchanged. -/
theorem Bank.settle_of_above_eq_false {b : Bank} (h : b.above = false) : b.settle = b := by
  obtain ⟨hfurnaces, hlines, hpools, hplant⟩ := Bank.above_eq_false_iff.mp h
  have hf : (b.furnaces.mapIdx fun _ r => r.limit) = b.furnaces := by
    ext1 f
    rw [Tab.get_mapIdx, FurnaceRecord.limit_of_above_eq_false (hfurnaces f)]
  have hl : (b.lines.mapIdx fun _ r => r.limit) = b.lines := by
    ext1 l
    rw [Tab.get_mapIdx, LineBankRecord.limit_of_above_eq_false (hlines l)]
  have hp : (b.pools.mapIdx fun _ r => r.limit) = b.pools := by
    ext1 p
    rw [Tab.get_mapIdx, PoolRecord.limit_of_above_eq_false (hpools p)]
  simp only [Bank.settle, h, Bool.or_false, hf, hl, hp, PlantRecord.limit_of_above_eq_false hplant]

/-! ## The content of a queue (R102) -/

@[simp] theorem queueContent_nil (c : Carrier) : (queueContent []).get c = 0 := Kj.get_zero c

theorem queueContent_append (p q : List QueueRecord) (c : Carrier) :
    (queueContent (p ++ q)).get c = (queueContent p).get c + (queueContent q).get c := by
  simp only [queueContent, Kj.get_sum, List.map_append, List.sum_append]

theorem queueContent_singleton (r : QueueRecord) (c : Carrier) : (queueContent [r]).get c = r.energy.get c := by
  simp [queueContent, Kj.get_sum]

/-- Without a saturated record, what the stage takes in and what stood in the queue is what it gives out and what then stands
there (R105 to R107). -/
theorem queueEffect_balance (n : BitVec 32) (st : FurnaceState) (direct : Kj) (q : Quality) (x : Furnace) (c : Carrier)
    (h : (queueEffect n st direct q x).saturated = false) :
    (queueContent x.queue).get c + direct.get c =
      (queueContent (queueEffect n st direct q x).released).get c + (queueEffect n st direct q x).hold.get c +
        (queueEffect n st direct q x).heatup.get c + (queueContent (queueEffect n st direct q x).queue).get c := by
  cases st with
  | melt =>
    have hrecord : (newRecord n direct q).energy = direct := Kj.limit_of_above_eq_false h
    have hpushed := queueContent_append x.queue [newRecord n direct q] c
    rw [queueContent_singleton, hrecord,
      ← List.take_append_drop (releaseCount x.lag (x.queue ++ [newRecord n direct q])) (x.queue ++ [newRecord n direct q]),
      queueContent_append] at hpushed
    simp only [queueEffect, Kj.get_zero]
    omega
  | hold => simp only [queueEffect, queueContent_nil, Kj.get_zero]; omega
  | heatup => simp only [queueEffect, queueContent_nil, Kj.get_zero]; omega

/-! ## A split gives out what it is given (R117) -/

theorem weightSum_eq_zero_iff {w : Tab 12 Nat} : weightSum w = 0 ↔ ∀ l, w.get l = 0 := by
  simp [weightSum, sumIdx_eq_sum]

theorem get_sharedSum (k : Kj) (w : Tab 12 Nat) (c : Carrier) : (sharedSum k w).get c = ∑ l, share (k.get c) w l := by
  simp only [sharedSum, Kj.get_sum, List.map_map, Function.comp_def, shares, Kj.get_ofFn]
  exact sumIdx_eq_sum _

/-- The shares of a split with a weight above 0 add up to what was split. -/
theorem sharedSum_eq {k : Kj} {w : Tab 12 Nat} (h : weightSum w ≠ 0) : sharedSum k w = k := by
  have hpositive : ¬ ∀ l, w.get l = 0 := fun hzero => h (weightSum_eq_zero_iff.mpr hzero)
  push Not at hpositive
  obtain ⟨l, hl⟩ := hpositive
  ext c
  rw [get_sharedSum, sum_share hl]

/-- A furnace's released energy is attributed whole, or stands whole in no-pull (R119, R120). -/
theorem FurnaceResult.split_balance (w : Tab 12 Nat) (r : FurnaceResult) (c : Carrier) :
    (r.split w).attributed.get c + (r.split w).noPull.get c = r.released.get c := by
  by_cases h : weightSum w = 0
  · simp [FurnaceResult.split, h, Kj.onlyIf]
  · simp [FurnaceResult.split, h, Kj.onlyIf, sharedSum_eq h]

/-! ## The balance of a furnace record, with what a computation is about to add -/

/-- What has entered a record and will enter it is what has left it, will leave it and is in process. -/
def FurnaceRecord.Balanced (r : FurnaceRecord) (due : Option FurnaceResult) (split : Bool) (inProcess : Kj) : Prop :=
  ∀ c, r.entered c + (due.elim 0 fun x => x.entering c) =
    r.left c + (due.elim 0 fun x => x.leaving split c) + inProcess.get c

/-- What the computation in flight will add for a furnace, in the span of R150. -/
def State.dueEntry (s : State) (f : Fin 4) : Option FurnaceResult :=
  if s.engine.phase.inSpan then s.working.bind fun t => t.furnaces.get f else none

/-- The FROZEN bank's half of the law. -/
def State.FrozenBalanced (s : State) : Prop :=
  ∀ i, (s.banks.get i).state = .frozen → (s.banks.get i).saturated = false → ∀ f,
    ((s.banks.get i).furnaces.get f).Balanced none true ((s.banks.get i).furnaces.get f).nowFrozen

/-- Whether the ACTIVE bank is exempt: its saturation flag is set, or is about to be. -/
def State.exempt (s : State) : Bool := s.activeBank.saturated || (s.engine.phase.inSpan && s.engine.saturated)

/-- The ACTIVE bank's half. -/
def State.ActiveBalanced (s : State) : Prop :=
  s.exempt = false → ∀ f, (s.activeBank.furnaces.get f).Balanced (s.dueEntry f) (s.engine.phase != .queued)
    (queueContent (s.furnaces.get f).queue)

/-- In the span of R150 the working copy is there. -/
def State.SpanHasWorking (s : State) : Prop := s.engine.phase.inSpan = true → s.working.isSome = true

theorem State.balanceLaw_iff {s : State} (hworking : s.SpanHasWorking) :
    s.balanceLaw ↔ s.FrozenBalanced ∧ s.ActiveBalanced := by
  unfold State.balanceLaw State.FrozenBalanced State.ActiveBalanced State.exempt State.dueEntry FurnaceRecord.Balanced
  refine and_congr (by simp) ?_
  cases hspan : s.engine.phase.inSpan with
  | false => simp
  | true =>
    obtain ⟨t, ht⟩ := Option.isSome_iff_exists.mp (hworking hspan)
    simp only [ht, Bool.true_and, Bool.or_eq_false_iff, if_true, Option.bind_some, reduceCtorEq, false_implies, true_and,
      true_implies, Option.some.injEq, forall_eq', and_imp]
    refine ⟨fun h hsat hengine f c => ?_, fun h hsat f c hengine => ?_⟩
    · have hfc := h hsat f c hengine
      split at hfc <;> simp_all
    · have hfc := h hsat hengine f c
      split <;> simp_all

/-- The two halves of the law. -/
structure State.Balanced (s : State) : Prop where
  frozen : s.FrozenBalanced
  active : s.ActiveBalanced

/-! ## What leaves the balance -/

theorem State.activeBank_congr {s t : State} (h : t.banks = s.banks) : t.activeBank = s.activeBank := by
  simp only [State.activeBank, State.activeIdx, h]

theorem State.FrozenBalanced.congr {s t : State} (hs : s.FrozenBalanced) (h : t.banks = s.banks) : t.FrozenBalanced := by
  unfold State.FrozenBalanced
  rw [h]
  exact hs

theorem State.dueEntry_of_not_inSpan {s : State} (h : s.engine.phase.inSpan = false) (f : Fin 4) : s.dueEntry f = none := by
  rw [State.dueEntry, h]
  rfl

theorem State.dueEntry_of_inSpan {s : State} (h : s.engine.phase.inSpan = true) (f : Fin 4) :
    s.dueEntry f = s.working.bind fun t => t.furnaces.get f := by
  rw [State.dueEntry, h]
  rfl

theorem State.exempt_of_not_inSpan {s : State} (h : s.engine.phase.inSpan = false) : s.exempt = s.activeBank.saturated := by
  rw [State.exempt, h, Bool.false_and, Bool.or_false]

/-- With no entry due it does not matter whether the split has been made. -/
theorem FurnaceRecord.Balanced.of_none {r : FurnaceRecord} {split split' : Bool} {k : Kj} (h : r.Balanced none split k) :
    r.Balanced none split' k := h

/-- Outside the span of R150, before and after, the balance turns on the banks and the queues. -/
theorem State.Balanced.outside {s t : State} (hs : s.Balanced) (hbefore : s.engine.phase.inSpan = false)
    (hafter : t.engine.phase.inSpan = false) (hbanks : t.banks = s.banks)
    (hqueue : ∀ f, (t.furnaces.get f).queue = (s.furnaces.get f).queue) : t.Balanced where
  frozen := hs.frozen.congr hbanks
  active hexempt f := by
    rw [State.exempt_of_not_inSpan hafter, State.activeBank_congr hbanks] at hexempt
    have hf := hs.active ((State.exempt_of_not_inSpan hbefore).trans hexempt) f
    rw [State.dueEntry_of_not_inSpan hbefore] at hf
    rw [State.dueEntry_of_not_inSpan hafter, State.activeBank_congr hbanks, hqueue]
    exact hf.of_none

/-- The engine and the working copy standing, the balance turns on the banks and the queues. -/
theorem State.Balanced.congr {s t : State} (hs : s.Balanced) (hengine : t.engine = s.engine) (hworking : t.working = s.working)
    (hbanks : t.banks = s.banks) (hqueue : ∀ f, (t.furnaces.get f).queue = (s.furnaces.get f).queue) : t.Balanced where
  frozen := hs.frozen.congr hbanks
  active := by
    unfold State.ActiveBalanced State.exempt State.dueEntry
    rw [State.activeBank_congr hbanks, hengine, hworking]
    intro hexempt f
    rw [hqueue]
    exact hs.active hexempt f

/-! ## The ACTIVE bank replaced within its role -/

theorem State.activeBank_putBank {s : State} {b : Bank} (hbank : s.bankLaw) (hrole : s.activeBank.SameRole b) :
    (s.putBank s.activeIdx b).activeBank = b := by
  obtain ⟨-, hstate, -, hother⟩ := State.bankLaw_iff.mp hbank
  rw [State.activeBank, State.activeIdx_putBank hother.state_ne_active (hrole.state.trans hstate), State.putBank_banks,
    Tab.get_set_self]

theorem State.FrozenBalanced.putBank {s : State} {b : Bank} (hs : s.FrozenBalanced) (hbank : s.bankLaw)
    (hrole : s.activeBank.SameRole b) : (s.putBank s.activeIdx b).FrozenBalanced := by
  obtain ⟨-, hstate, -, -⟩ := State.bankLaw_iff.mp hbank
  intro i hfrozen
  rw [State.putBank_banks] at hfrozen ⊢
  by_cases hi : s.activeIdx = i
  · rw [hi, Tab.get_set_self, hrole.state, hstate] at hfrozen
    exact nomatch hfrozen
  · rw [Tab.get_set_ne _ hi] at hfrozen ⊢
    exact hs i hfrozen

/-- A queue emptied into its furnace's no-pull account leaves the balance (R16, R151). -/
theorem State.Balanced.retireFurnace {s : State} (f : Fin 4) (hbank : s.bankLaw) (hs : s.Balanced) :
    (s.retireFurnace f).Balanced := by
  have hrole := (s.activeBank.sameRole_addNoPull f (queueContent (s.furnaces.get f).queue)).trans (Bank.sameRole_settle _)
  have hbanks : (s.retireFurnace f).banks = (s.putBank s.activeIdx
      (s.activeBank.addNoPull f (queueContent (s.furnaces.get f).queue)).settle).banks := by
    simp [State.retireFurnace]
  have hactive := (State.activeBank_congr hbanks).trans (State.activeBank_putBank hbank hrole)
  refine ⟨(hs.frozen.putBank hbank hrole).congr hbanks, fun hexempt g => ?_⟩
  have hengine : (s.retireFurnace f).engine = s.engine := by simp
  have hworking : (s.retireFurnace f).working = s.working := by simp
  unfold State.exempt at hexempt
  rw [hactive, hengine, Bank.settle, Bool.or_eq_false_iff, Bool.or_eq_false_iff] at hexempt
  obtain ⟨⟨hsaturated, habove⟩, hspan⟩ := hexempt
  have hg := hs.active (Bool.or_eq_false_iff.mpr ⟨hsaturated, hspan⟩) g
  unfold State.dueEntry at hg ⊢
  rw [hactive, Bank.settle_of_above_eq_false habove, hengine, hworking]
  intro c
  have hc := hg c
  simp only [State.retireFurnace, State.notifyIf_furnaces, State.putFurnace_furnaces, State.putBank_furnaces, Bank.addNoPull,
    Tab.get_modify, Tab.get_set]
  split
  · subst_vars
    simp only [FurnaceRecord.entered, FurnaceRecord.left, Kj.get_add, queueContent_nil] at hc ⊢
    omega
  · exact hc

/-- An apply moves queue contents into no-pull accounts and leaves the balance. -/
theorem State.Balanced.applyMap {s : State} (hbank : s.bankLaw) (hs : s.Balanced) : s.applyMap.Balanced := by
  have hretired := State.retireFurnaces_preserves (P := fun s => s.bankLaw ∧ s.Balanced)
    (fun _ f h => ⟨State.bankLaw_retireFurnace f h.1, h.2.retireFurnace f h.1⟩) s.plant.active s.plant.staged
    (s := ({ s with plant := ⟨s.plant.staged, s.plant.staged, false⟩ } : State).clearChangedSources s.plant.active
      s.plant.staged) ⟨State.bankLaw_congr rfl hbank, hs.congr rfl rfl rfl fun _ => rfl⟩
  exact hretired.2.congr (by simp [State.applyMap]) (by simp [State.applyMap]) (by simp [State.applyMap])
    fun f => by simp [State.applyMap]

theorem State.Balanced.applyPendingLags {s : State} (hs : s.Balanced) : s.applyPendingLags.Balanced := by
  refine hs.congr rfl rfl rfl fun f => ?_
  rw [State.applyPendingLags, Tab.get_mapIdx]
  split <;> rfl

/-- With the engine idle a computation starts outside the span of R150. -/
theorem State.Balanced.startComputation {s : State} (i : Fin 2) (hbank : s.bankLaw) (hidle : s.engine.phase = .idle)
    (hs : s.Balanced) : (s.startComputation i).Balanced := by
  have hbegun : (s.beginComputation i).Balanced := hs.outside (by rw [hidle]; rfl) rfl rfl fun _ => rfl
  refine (State.startComputation_preserves (P := fun s => s.bankLaw ∧ s.Balanced) (i := i)
    ⟨State.bankLaw_congr rfl hbank, hbegun⟩ (fun h => ⟨State.bankLaw_applyMap h.1, h.2.applyMap h.1⟩)
    (fun h => ⟨State.bankLaw_congr rfl h.1, h.2.applyPendingLags⟩) (fun {s} h => ⟨State.bankLaw_congr rfl h.1, ?_⟩)).2
  exact ⟨h.2.frozen.congr rfl, h.2.active⟩

/-! ## Closure, marks, stops and completions -/

/-- The laws the balance rests on: the banks' and the balance itself. -/
structure State.BooksBalance (s : State) : Prop where
  banks   : s.bankLaw
  balance : s.Balanced

namespace State.BooksBalance

variable {s t : State}

theorem congr (hs : s.BooksBalance) (hengine : t.engine = s.engine) (hworking : t.working = s.working)
    (hbanks : t.banks = s.banks) (hqueue : ∀ f, (t.furnaces.get f).queue = (s.furnaces.get f).queue) : t.BooksBalance :=
  ⟨State.bankLaw_congr hbanks hs.banks, hs.balance.congr hengine hworking hbanks hqueue⟩

theorem applyMap (hs : s.BooksBalance) : s.applyMap.BooksBalance :=
  ⟨State.bankLaw_applyMap hs.banks, hs.balance.applyMap hs.banks⟩

theorem startComputation (i : Fin 2) (hidle : s.engine.phase = .idle) (hs : s.BooksBalance) :
    (s.startComputation i).BooksBalance :=
  ⟨State.bankLaw_startComputation i hs.banks, hs.balance.startComputation i hs.banks hidle⟩

theorem closeWindow {hold : Bool} {i : Fin 2} (hidle : s.busy = false → s.engine.phase = .idle) (hs : s.BooksBalance) :
    (s.closeWindow hold i).BooksBalance := by
  unfold State.closeWindow
  dsimp only
  split
  · exact hs.congr rfl rfl rfl fun _ => rfl
  · rename_i hstarts
    have hbusy : s.busy = false := by
      rw [Bool.or_eq_true, not_or, Bool.not_eq_true] at hstarts
      exact hstarts.1
    exact startComputation i (hidle hbusy) (hs.congr rfl rfl rfl fun _ => rfl)

end State.BooksBalance

/-- With no set COMPUTING the engine is idle. -/
theorem SlotLawIn.phase_of_not_busy {hold : Bool} {s : State} (hs : SlotLawIn hold s) (h : s.busy = false) :
    s.engine.phase = .idle :=
  hs.engine.mpr (Fin.forall_fin_two.mp (State.busy_eq_false_iff.mp h))

theorem SlotLawIn.spanHasWorking {hold : Bool} {s : State} (hs : SlotLawIn hold s) : s.SpanHasWorking := by
  intro hspan
  by_contra hnone
  obtain hidle | hbanked := hs.working.mpr (Bool.not_eq_true _ ▸ hnone)
  · rw [hidle] at hspan; exact nomatch hspan
  · rw [hbanked] at hspan; exact nomatch hspan

namespace State.BooksBalance

variable {s t : State}

theorem judgeClosure {hold : Bool} (hslots : SlotLawIn hold s) (hs : s.BooksBalance) :
    (s.judgeClosure hold).BooksBalance := by
  unfold State.judgeClosure
  split
  · split
    · exact hs.closeWindow hslots.phase_of_not_busy
    · exact hs
  · exact hs

theorem openWindow (n : BitVec 32) (mark : Option CloseCause) (hs : s.BooksBalance) : (s.openWindow n mark).BooksBalance :=
  hs.congr (by simp) (by simp) (by simp) fun f => by simp

theorem acceptMark (pmark : Bool) (hacc : s.ctrl.acc = .running) (hbusy : s.busy = false) (hslots : SlotLawIn false s)
    (hs : s.BooksBalance) : (s.acceptMark pmark).BooksBalance := by
  obtain ⟨hclosed, hrunning, hsets⟩ := SlotLawIn.closed_by_mark hacc hbusy hslots
  rw [State.acceptMark_eq]
  refine judgeClosure (slotLawIn_congr rfl rfl rfl (fun _ => rfl)
    (slotLawIn_openWindow s.ctrl.current (markOf pmark s.ctrl.closeLatch) hrunning hsets hclosed)) ?_
  refine congr (s := _) (openWindow s.ctrl.current (markOf pmark s.ctrl.closeLatch) ?_) rfl rfl rfl fun _ => rfl
  cases hopened : s.ctrl.setWith .opened with
  | some i =>
    rw [State.closedByMark_of_opened hopened]
    exact hs.closeWindow hslots.phase_of_not_busy
  | none =>
    rw [State.closedByMark_of_none hopened]
    exact hs

theorem returnToReady (hs : s.BooksBalance) : s.returnToReady.BooksBalance := by
  have hready : (((s.setAcc .ready).notify .stopped).applyPendingLags).BooksBalance :=
    ⟨State.bankLaw_congr rfl hs.banks,
      State.Balanced.applyPendingLags (s := (s.setAcc .ready).notify .stopped)
        (hs.balance.congr rfl rfl rfl fun _ => rfl)⟩
  unfold State.returnToReady
  dsimp only
  split
  · exact hready.applyMap
  · exact hready

theorem afterCompletion (i : Fin 2) (hphase : s.engine.phase = .banked) (hs : s.BooksBalance) :
    (s.afterCompletion i).BooksBalance := by
  have hfree : ({ s.putSet i .free with engine := .idle } : State).BooksBalance :=
    ⟨State.bankLaw_congr rfl hs.banks, hs.balance.outside (by rw [hphase]; rfl) rfl rfl fun _ => rfl⟩
  unfold State.afterCompletion
  dsimp only
  split
  · exact hfree.startComputation _ rfl
  · split
    · exact hfree.returnToReady
    · exact hfree

/-- At a swap the frozen bank's in-process now, and the fresh bank's in-process at start, are the queues' content (R153). -/
theorem swap (c : CloseCause) (hphase : s.engine.phase.inSpan = false) (hs : s.BooksBalance) : (s.swap c).BooksBalance := by
  have hbank := State.bankLaw_swap c hs.banks
  have hactive := s.swap_banks_get_active c
  have hother := s.swap_banks_get_other c
  have hspan : (s.swap c).engine.phase.inSpan = false := by rw [State.swap_engine]; exact hphase
  refine ⟨hbank, fun i hfrozen hsaturated f => ?_, fun _ f => ?_⟩
  · by_cases hi : i = s.activeIdx
    · subst hi
      rw [hactive] at hsaturated ⊢
      have hf := hs.balance.active ((State.exempt_of_not_inSpan hphase).trans hsaturated) f
      rw [State.dueEntry_of_not_inSpan hphase] at hf
      intro d
      have hd := hf d
      simp only [Bank.freeze, Tab.get_mapIdx, State.inProcess] at hd ⊢
      exact hd
    · rw [eq_other hi, hother] at hfrozen
      exact nomatch hfrozen
  · have hidx : (s.swap c).activeIdx = other s.activeIdx :=
      State.activeIdx_eq (by rw [hother]; rfl) (by rw [other_other, hactive]; nofun)
    rw [State.dueEntry_of_not_inSpan hspan, State.activeBank, hidx, hother, State.swap_furnaces]
    intro d
    simp [Bank.fresh, FurnaceRecord.entered, FurnaceRecord.left, FurnaceRecord.zero, State.inProcess]

/-- The interval added at the completion: what was due is in the bank (R147). -/
theorem bank {t : ResultTable} {u : State} (hphase : s.engine.phase = .totalled) (hworking : s.working = some t)
    (hbanks : u.banks = (s.putBank s.activeIdx (s.activeBank.addInterval t s.engine.saturated)).banks)
    (hbanked : u.engine.phase = .banked) (hfurnaces : u.furnaces = s.furnaces) (hs : s.BooksBalance) : u.BooksBalance := by
  have hrole := s.activeBank.sameRole_addInterval t s.engine.saturated
  have hactive := (State.activeBank_congr hbanks).trans (State.activeBank_putBank hs.banks hrole)
  have hspan : s.engine.phase.inSpan = true := by rw [hphase]; rfl
  have hspan' : u.engine.phase.inSpan = false := by rw [hbanked]; rfl
  refine ⟨State.bankLaw_congr hbanks (State.bankLaw_putBank hs.banks hrole (Bank.above_addInterval ..)),
    (hs.balance.frozen.putBank hs.banks hrole).congr hbanks, fun hexempt f => ?_⟩
  rw [State.exempt_of_not_inSpan hspan', hactive] at hexempt
  rw [State.dueEntry_of_not_inSpan hspan', hactive, hfurnaces]
  simp only [Bank.addInterval, Bank.settle, Bool.or_eq_false_iff] at hexempt
  obtain ⟨⟨hsaturated, habove⟩, hengine⟩ := hexempt
  have hf := hs.balance.active (by rw [State.exempt, hengine, Bool.and_false, Bool.or_false]; exact hsaturated) f
  rw [State.dueEntry_of_inSpan hspan, hworking, Option.bind_some, hphase] at hf
  have hsettle : ((s.activeBank.addInterval t s.engine.saturated).furnaces.get f) =
      (s.activeBank.addExact t).furnaces.get f := by
    rw [Bank.addInterval, Bank.settle_of_above_eq_false habove]
  rw [hsettle, Bank.addExact, Tab.get_mapIdx]
  intro c
  have hc := hf c
  cases hx : t.furnaces.get f with
  | none => rw [hx] at hc; exact hc
  | some x =>
    rw [hx] at hc
    simp only [addPresent, FurnaceRecord.entered, FurnaceRecord.left, FurnaceRecord.addInterval, FurnaceResult.entering,
      FurnaceResult.leaving, Option.elim_some, Option.elim_none, Kj.get_add, (by decide : (Phase.totalled != .queued) = true),
      if_true] at hc ⊢
    omega

/-! ## The stages in the span -/

/-- The queue stage: what a furnace's accounts will take in and give out, and what is in its queue, balance (R150). -/
theorem queueStage (i : Fin 2) (hphase : s.engine.phase = .converted) (hworking : s.working.isSome = true)
    (hs : s.BooksBalance) : (s.queueStage i).BooksBalance := by
  refine ⟨State.bankLaw_congr rfl hs.banks, hs.balance.frozen.congr rfl, fun hexempt f => ?_⟩
  obtain ⟨t, ht⟩ := Option.isSome_iff_exists.mp hworking
  have hspan : s.engine.phase.inSpan = false := by rw [hphase]; rfl
  obtain ⟨hsaturated, hengine⟩ := Bool.or_eq_false_iff.mp hexempt
  have hf := hs.balance.active ((State.exempt_of_not_inSpan hspan).trans hsaturated) f
  rw [State.dueEntry_of_not_inSpan hspan] at hf
  rw [State.dueEntry_of_inSpan rfl, State.activeBank_congr (s := s) (t := s.queueStage i) rfl]
  simp only [State.queueStage, ht, Option.map_some, Option.bind_some, Tab.get_ofFn, Tab.get_mapIdx]
  intro c
  have hc := hf c
  cases hx : s.queueEffectAt i f with
  | none => exact hc
  | some y =>
    have hy : y.saturated = false := by
      by_contra hy
      have hany : (s.queueStage i).engine.saturated = true := by
        refine (anyIdx_iff _).mpr ⟨f, ?_⟩
        rw [Tab.get_ofFn, hx]
        exact Bool.not_eq_false _ ▸ hy
      exact absurd (hengine.symm.trans hany) nofun
    unfold State.queueEffectAt at hx
    split at hx
    · obtain rfl := Option.some.inj hx
      have hbalance := queueEffect_balance _ _ _ _ _ c hy
      simp only [Option.map_some, Option.elim_some, Option.elim_none, FurnaceResult.entering, FurnaceResult.leaving,
        furnaceResult, bne_self_eq_false, Bool.false_eq_true, if_false] at hc hbalance ⊢
      omega
    · exact nomatch hx

/-- A later stage of the span changes no bank and no queue; what an entry will add must stand. -/
theorem later {split : Bool} (hs : s.BooksBalance) (hspan : s.engine.phase.inSpan = true) (hspan' : t.engine.phase.inSpan = true)
    (hsplit : (t.engine.phase != .queued) = split) (hsaturated : t.engine.saturated = s.engine.saturated)
    (hbanks : t.banks = s.banks) (hqueue : t.furnaces = s.furnaces)
    (hdue : ∀ f c, ((t.dueEntry f).elim 0 fun x => x.entering c) = ((s.dueEntry f).elim 0 fun x => x.entering c) ∧
      ((t.dueEntry f).elim 0 fun x => x.leaving split c) =
        ((s.dueEntry f).elim 0 fun x => x.leaving (s.engine.phase != .queued) c)) :
    t.BooksBalance := by
  refine ⟨State.bankLaw_congr hbanks hs.banks, hs.balance.frozen.congr hbanks, fun hexempt f c => ?_⟩
  rw [State.exempt, hspan', hsaturated, State.activeBank_congr hbanks, ← hspan] at hexempt
  rw [State.activeBank_congr hbanks, hqueue, hsplit, (hdue f c).1, (hdue f c).2]
  exact hs.balance.active hexempt f c

end State.BooksBalance

/-! ## Every change keeps the balance -/

theorem State.booksBalance_empty {s : State} (hbanks : s.banks = Bank.afterReset) (hphase : s.engine.phase = .idle)
    (hqueue : ∀ f, (s.furnaces.get f).queue = []) : s.BooksBalance := by
  refine ⟨State.bankLaw_afterReset hbanks, fun i hfrozen => ?_, fun _ f c => ?_⟩
  · rw [hbanks] at hfrozen
    match i with
    | 0 => exact nomatch hfrozen
    | 1 => exact nomatch hfrozen
  · have hactive : s.activeBank = .cleared .active 1 := by
      simp only [State.activeBank, State.activeIdx, hbanks]
      rfl
    rw [State.dueEntry_of_not_inSpan (by rw [hphase]; rfl), hactive, hqueue, Bank.cleared, Tab.get_const]
    simp [FurnaceRecord.entered, FurnaceRecord.left, FurnaceRecord.zero]

/-- The furnace split turns each released energy into attributed or no-pull (R119, R120). -/
theorem State.BooksBalance.furnaceSplitStage {s : State} (i : Fin 2) (hphase : s.engine.phase = .queued)
    (hs : s.BooksBalance) : (s.furnaceSplitStage i).BooksBalance := by
  refine hs.later (split := true) (by rw [hphase]; rfl) rfl rfl rfl rfl rfl fun f c => ?_
  rw [State.dueEntry_of_inSpan (s := s.furnaceSplitStage i) rfl, State.dueEntry_of_inSpan (s := s) (by rw [hphase]; rfl), State.furnaceSplitStage,
    hphase]
  cases s.working with
  | none => exact ⟨rfl, rfl⟩
  | some t =>
    simp only [Option.map_some, Option.bind_some, Tab.get_mapIdx]
    cases t.furnaces.get f with
    | none => exact ⟨rfl, rfl⟩
    | some x =>
      have hsplit := FurnaceResult.split_balance (pullWeights s.plant.active s.engine.acc.gross f) x c
      refine ⟨rfl, ?_⟩
      simp only [Option.map_some, Option.elim_some, FurnaceResult.leaving, if_true, bne_self_eq_false, Bool.false_eq_true,
        if_false, hsplit]
      rfl

/-- The totals stage completes the figures of a furnace entry, not its energies. -/
theorem State.BooksBalance.totalsStage {s : State} (i : Fin 2) (hphase : s.engine.phase = .poolSplit)
    (hs : s.BooksBalance) : (s.totalsStage i).BooksBalance := by
  refine hs.later (split := true) (by rw [hphase]; rfl) rfl rfl rfl rfl rfl fun f c => ?_
  rw [State.dueEntry_of_inSpan (s := s.totalsStage i) rfl, State.dueEntry_of_inSpan (s := s) (by rw [hphase]; rfl), State.totalsStage,
    hphase]
  cases s.working with
  | none => exact ⟨rfl, rfl⟩
  | some t =>
    simp only [Option.map_some, Option.bind_some, ResultTable.totals, Tab.get_mapIdx]
    cases t.furnaces.get f with
    | none => exact ⟨rfl, rfl⟩
    | some x => exact ⟨rfl, rfl⟩

/-- The pool split leaves the furnace entries. -/
theorem State.BooksBalance.poolSplitStage {s : State} (i : Fin 2) (hphase : s.engine.phase = .furnaceSplit)
    (hs : s.BooksBalance) : (s.poolSplitStage i).BooksBalance := by
  refine hs.later (split := true) (by rw [hphase]; rfl) rfl rfl rfl rfl rfl fun f c => ?_
  rw [State.dueEntry_of_inSpan (s := s.poolSplitStage i) rfl, State.dueEntry_of_inSpan (s := s) (by rw [hphase]; rfl), State.poolSplitStage,
    hphase]
  cases s.working with
  | none => exact ⟨rfl, rfl⟩
  | some t => exact ⟨rfl, rfl⟩

theorem State.BooksBalance.endBooting {s : State} (hphase : s.engine.phase = .idle) (hs : s.BooksBalance) :
    s.endBooting.BooksBalance := by
  have hspan : s.engine.phase.inSpan = false := by rw [hphase]; rfl
  refine ⟨State.bankLaw_congr s.endBooting_banks hs.banks, ?_⟩
  unfold State.endBooting
  split
  · exact hs.balance.outside hspan hspan rfl fun f => by rw [Tab.get_mapIdx]
  · exact hs.balance.outside hspan hspan rfl fun f => by rw [State.notify_furnaces, Tab.get_mapIdx]

theorem State.booksBalance_change {hold : Bool} {s t : State} (h : Change hold s t) (hslots : SlotLawIn hold s)
    (hs : s.BooksBalance) : t.BooksBalance := by
  have outside (hphase : s.engine.phase.inSpan = false) (hphase' : t.engine.phase.inSpan = false) (hbanks : t.banks = s.banks)
      (hqueue : ∀ f, (t.furnaces.get f).queue = (s.furnaces.get f).queue) : t.BooksBalance :=
    ⟨State.bankLaw_congr hbanks hs.banks, hs.balance.outside hphase hphase' hbanks hqueue⟩
  have working {i : Fin 2} (hi : s.ctrl.setWith .computing = some i) (hbanked : s.engine.phase ≠ .banked) :
      s.working.isSome = true := by
    have hview := (slotLawIn_iff i).mp hslots
    by_contra hnone
    obtain hidle | hphase := hview.working.mpr (Bool.not_eq_true _ ▸ hnone)
    · exact (hview.engine.mp hidle).1 (Controller.status_of_setWith hi)
    · exact hbanked hphase
  cases h with
  | outside | port | notify | receiver | slots | calendar | staged | plan | becomeReady | run | unsetSources | stopLater
  | store => exact hs.congr rfl rfl rfl fun _ => rfl
  | errorEvent | clearLink => exact hs.congr (by simp) (by simp) (by simp) fun f => by simp
  | furnace f =>
    refine hs.congr rfl rfl rfl fun g => ?_
    rw [State.putFurnace_furnaces, Tab.get_set]
    split
    · subst_vars; rfl
    · rfl
  | apply => exact hs.applyMap
  | close i => exact hs.closeWindow hslots.phase_of_not_busy
  | mark pmark hacc hbusy => exact hs.acceptMark pmark hacc hbusy hslots
  | stopOpen i =>
    exact State.BooksBalance.closeWindow (s := s.setAcc .stopping) hslots.phase_of_not_busy
      (hs.congr rfl rfl rfl fun _ => rfl)
  | swap c hswap =>
    refine hs.swap c ?_
    obtain hnone | hphase := hswap
    · rw [hslots.phase_of_not_busy (State.busy_eq_false_iff.mpr (Controller.setWith_eq_none.mp hnone))]; rfl
    · rw [hphase]; rfl
  | stopNow => exact hs.returnToReady
  | accountingReset => exact State.booksBalance_empty rfl rfl fun f => congrArg Furnace.queue (Tab.get_mapIdx ..)
  | endBooting hacc =>
    refine hs.endBooting (hslots.engine.mpr ?_)
    obtain ⟨h0, h1⟩ := hslots.idle (by simp [hacc]) (by simp [hacc])
    rw [h0, h1]
    exact ⟨nofun, nofun⟩
  | pinReset => exact State.booksBalance_empty rfl rfl fun f => congrArg Furnace.queue (Tab.get_const ..)
  | reconcile i hi hphase => exact outside (by rw [hphase]; rfl) rfl rfl fun _ => rfl
  | convert i hi hphase => exact outside (by rw [hphase]; rfl) rfl rfl fun _ => rfl
  | queue i hi hphase => exact hs.queueStage i hphase (working hi (by simp [hphase]))
  | furnaceSplit i hi hphase => exact hs.furnaceSplitStage i hphase
  | poolSplit i hi hphase => exact hs.poolSplitStage i hphase
  | totals i hi hphase => exact hs.totalsStage i hphase
  | bank i mark t hi hphase hworking =>
    exact hs.bank hphase hworking (by simp [State.publish, State.completionNotices]) rfl (by simp)
  | finish i hi hphase => exact hs.afterCompletion i hphase

theorem keptByChanges_booksBalance : KeptByChanges fun hold s => SlotLawIn hold s ∧ s.BooksBalance where
  change h hs := ⟨slotLawIn_change h hs.1, State.booksBalance_change h hs.1 hs.2⟩
  enter hs := ⟨hs.1.enter, hs.2⟩
  leave {s} hs := by
    refine ⟨hs.1.leave, ?_⟩
    unfold State.startWaiting
    split
    · split
      · exact hs.2
      · rename_i hidle
        exact hs.2.startComputation _ (hs.1.phase_of_not_busy (Bool.not_eq_true _ ▸ hidle))
    · exact hs.2

/-- Settles O60: each change moves energy between the two sides of the balance, or leaves both. -/
theorem everyStepKeepsTheFurnaceBalance : Obligations.EveryStepKeepsTheFurnaceBalance := by
  intro s s' hbank hslots hbalance hstep
  have hin := slotLaw_iff.mp hslots
  obtain ⟨hfrozen, hactive⟩ := (State.balanceLaw_iff hin.spanHasWorking).mp hbalance
  obtain ⟨hin', -, hfrozen', hactive'⟩ := keptByChanges_booksBalance.step hstep ⟨hin, hbank, hfrozen, hactive⟩
  exact (State.balanceLaw_iff hin'.spanHasWorking).mpr ⟨hfrozen', hactive'⟩

end Sys2Proof.Machine
end

section
/-! PROOFS. The read commands (R10, R36, R112, R141, R155, R162, R166, R183): the read that carries what its owner answers, said once
for every command, and the copies field by field. -/

namespace Sys2Proof.Machine

/-! ## A read with its selector bytes (R166) -/

section Read
variable {c : Command} {p : Port} {sel rest : List Byte} {f : List Byte → State → Copy} {s : State}

/-- With its selector bytes a read has its length, and the bytes after them shift out the copy. -/
theorem lengthSuits_of_selectors (hread : isWrite c = false) (hsel : sel.length = selectorCount c) (rest : List Byte) :
    lengthSuits c (1 + (sel ++ rest).length) = true ∧ (sel ++ rest).length - selectorCount c = rest.length := by
  rw [lengthSuits_read hread, List.length_append, hsel]
  omega

/-- Outside BOOTING, what the owner copies is what the port sends. -/
theorem readTransaction_copied_of_selectors {copy : List Byte} (hread : isWrite c = false)
    (hsel : sel.length = selectorCount c) (hacc : s.ctrl.acc ≠ .booting) (hc : f (sel ++ rest) s = .ok copy) :
    (.next (readTransaction c ⟨p, sel ++ rest⟩ false f s) : Host.Outcome State Fault Refusal) =
      .next (s.copied p sel.length rest.length copy) := by
  obtain ⟨hlength, hrest⟩ := lengthSuits_of_selectors hread hsel rest
  rw [readTransaction_copied (t := ⟨p, sel ++ rest⟩) (.inl hacc) hlength hc, hrest, hsel]

/-- Outside BOOTING, a result the owner refuses with is the port's. -/
theorem readTransaction_refused_of_selectors {r : Result} (hread : isWrite c = false)
    (hsel : sel.length = selectorCount c) (hacc : s.ctrl.acc ≠ .booting) (hc : f (sel ++ rest) s = .error (.result r)) :
    (.next (readTransaction c ⟨p, sel ++ rest⟩ false f s) : Host.Outcome State Fault Refusal) =
      .next (s.readRefused p r sel.length rest.length) := by
  obtain ⟨hlength, hrest⟩ := lengthSuits_of_selectors hread hsel rest
  rw [readTransaction_refused (t := ⟨p, sel ++ rest⟩) (.inl hacc) hlength hc, hrest, hsel]

/-- Outside BOOTING, a detail the owner refuses with is the port's. -/
theorem readTransaction_range_of_selectors {d : Detail} (hread : isWrite c = false) (hsel : sel.length = selectorCount c)
    (hacc : s.ctrl.acc ≠ .booting) (hc : f (sel ++ rest) s = .error (.range d)) :
    (.next (readTransaction c ⟨p, sel ++ rest⟩ false f s) : Host.Outcome State Fault Refusal) =
      .next (s.readRefusedRange p d sel.length rest.length) := by
  obtain ⟨hlength, hrest⟩ := lengthSuits_of_selectors hread hsel rest
  rw [readTransaction_range (t := ⟨p, sel ++ rest⟩) (.inl hacc) hlength hc, hrest, hsel]

end Read

/-- A byte is the byte of its number. -/
@[simp] theorem byteOf_toNat_self (b : Byte) : byteOf b.toNat = b := BitVec.eq_of_toNat_eq (byteOf_toNat b.isLt)

/-! ## Reads refused by the port (R166, R168) -/

/-- A read command but READ STATUS is a read transaction with some copy; READ ID alone is taken in BOOTING. -/
theorem exec_instrOfCommand_read {c : Command} (hread : isWrite c = false) (hstatus : c ≠ .readStatus) (t : Transfer)
    (wpN : Bool) (s : State) : ∃ f : List Byte → State → Copy,
      exec (instrOfCommand c t wpN) s = .next (readTransaction c t (c == .readId) f s) := by
  cases c with
  | readStatus => exact absurd rfl hstatus
  | readId | readNotices | readResult | readBankRecord | readPointState | readQueue | readLinkStatus | readStagedEntry
  | readActiveEntry | readStore => exact ⟨_, rfl⟩
  | _ => exact nomatch hread

/-- Settles O6: the two refusals of a read transaction, for the transaction each read command runs. -/
theorem readsRefusedBeforeTheirOwner : Obligations.ReadsRefusedBeforeTheirOwner := by
  intro c t wpN s hread hstatus
  obtain ⟨f, hexec⟩ := exec_instrOfCommand_read hread hstatus t wpN s
  rw [hexec]
  refine ⟨fun hshort => congrArg Host.Outcome.next (readTransaction_short ?_), fun hlength hid hbooting => ?_⟩
  · rw [Bool.eq_false_iff, Ne, lengthSuits_read hread]
    omega
  · rw [beq_eq_false_iff_ne.mpr hid]
    exact congrArg Host.Outcome.next (readTransaction_booting hbooting ((lengthSuits_read hread _).mpr hlength))

/-! ## READ STATUS and READ ID (R161, R162, R171) -/

/-- Settles O3: a stretch of a READ STATUS at its port, part by part, and the identity record. -/
theorem readStatusAndReadIdAlwaysAnswer : Obligations.ReadStatusAndReadIdAlwaysAnswer := by
  refine ⟨fun p bytes s => ⟨rfl, rfl, fun n hdecoder => ?_, fun hidle => ?_⟩, fun p bytes s => ?_⟩
  · have further (ends : Bool) : (s.onPort p fun u => u.goOn (s.status p) bytes.length ends) = s.onPort p fun u =>
        { u with
          decoder := if ends then none else some ⟨0x01, n + bytes.length, []⟩
          sent := u.sent ++ List.replicate bytes.length (s.status p) } := by
      simp only [State.onPort, PortUnit.goOn, hdecoder]
      rfl
    exact ⟨congrArg Host.Outcome.next (further false), congrArg Host.Outcome.next (further true)⟩
  · have ignored (ends : Bool) : (s.onPort p fun u => u.goOn (s.status p) bytes.length ends) = s := by
      simp only [State.onPort, PortUnit.goOn, hidle, Ports.put_get_self]
    exact ⟨congrArg Host.Outcome.next (ignored false), congrArg Host.Outcome.next (ignored true)⟩
  · have hread : exec (.readId ⟨p, bytes⟩) s = .next (s.copied p 0 bytes.length (idCopy p)) :=
      congrArg Host.Outcome.next (readTransaction_copied (t := ⟨p, bytes⟩) (.inr rfl)
        ((lengthSuits_read rfl _).mpr (Nat.zero_le _)) rfl)
    rw [hread]
    cases p <;> rfl

/-! ## UNKNOWN (R165 check 1) -/

/-- Settles O8: the free values drawn are one more than the whole bytes. -/
theorem unknownCommandByteHasNoEffect : Obligations.UnknownCommandByteHasNoEffect := by
  intro code t s
  refine ⟨fun hunknown => ?_, fun hknown => ?_⟩
  · refine ⟨(s.drawFree (t.bytes.length + 1)).1.take t.bytes.length, by simp [State.drawFree], ?_⟩
    rw [exec, execUnknown, hunknown]
    rfl
  · obtain ⟨c, hc⟩ := Option.ne_none_iff_exists'.mp hknown
    rw [exec, execUnknown, hc]

/-! ## READ LINK STATUS (R36) -/

/-- Settles O9: the link receivers' copy, or their refusal of a number that names no link. -/
theorem readLinkStatusCopiesTheLink : Obligations.ReadLinkStatusCopiesTheLink := by
  intro p sel rest s hacc
  refine ⟨fun l hl => ?_, fun hl => ?_⟩
  · have hcopy : linkStatusCopy s sel.toNat = .ok (linkBytes (s.plant.active.links.get l).mode (s.links.get l)) := by
      rw [linkStatusCopy, toIdx_eq_some.mpr hl]
    refine (readTransaction_copied_of_selectors (sel := [sel]) rfl rfl hacc hcopy).trans ?_
    unfold linkBytes frameProgress
    rfl
  · exact readTransaction_range_of_selectors (sel := [sel]) rfl rfl hacc (by
      show linkStatusCopy s sel.toNat = _
      rw [linkStatusCopy, toIdx_of_le (Nat.succ_le_of_lt hl)]
      rfl)

/-! ## READ STAGED ENTRY and READ ACTIVE ENTRY (R10) -/

theorem tableEntries_of_lt {table : Nat} (h : 6 < table) : tableEntries table = none := by
  match table, h with
  | _ + 7, _ => rfl

theorem selectorFault_of_table {table : Nat} (h : tableEntries table = none) (index : Nat) :
    selectorFault table index = some ⟨0, table, 0⟩ := by
  rw [selectorFault, h]
  rfl

theorem selectorFault_of_entries {table n : Nat} (h : tableEntries table = some n) (index : Nat) :
    selectorFault table index = if index < n then none else some ⟨table, index, 0⟩ := by
  rw [selectorFault, h]

/-- A good selector names an entry. -/
theorem exists_entryImage {table n index : Nat} (m : PlantMap) (h : tableEntries table = some n) (hi : index < n) :
    ∃ image, entryImage m table index = some image := by
  have hidx : toIdx n index = some ⟨index, hi⟩ := toIdx_eq_some.mpr rfl
  unfold tableEntries at h
  split at h
  case h_8 => cases h
  all_goals
    obtain rfl := Option.some.inj h
    exact ⟨_, by rw [entryImage, hidx]; rfl⟩

/-- What the plant map copies of one of its maps, by the selector. -/
theorem entryCopy_of_table {table : Nat} (h : tableEntries table = none) (m : PlantMap) (index : Nat) :
    entryCopy m table index = .error (.range ⟨0, table, 0⟩) := by
  rw [entryCopy, selectorFault_of_table h]

theorem entryCopy_of_le {table n index : Nat} (h : tableEntries table = some n) (hi : n ≤ index) (m : PlantMap) :
    entryCopy m table index = .error (.range ⟨table, index, 0⟩) := by
  rw [entryCopy, selectorFault_of_entries h, if_neg (Nat.not_lt.mpr hi)]

theorem entryCopy_of_lt {table n index : Nat} {m : PlantMap} {image : List Byte} (h : tableEntries table = some n)
    (hi : index < n) (himage : entryImage m table index = some image) :
    entryCopy m table index = .ok (byteOf table :: byteOf index :: padTo 32 image) := by
  rw [entryCopy, selectorFault_of_entries h, if_pos hi, himage]
  rfl

/-- Settles O10: the copy of one entry of either map, by the selector. -/
theorem readEntriesCopyTheMaps : Obligations.ReadEntriesCopyTheMaps := by
  intro p table index rest s hacc
  refine ⟨fun htable => ?_, fun n hn hindex => ?_, fun n hn hindex => ?_⟩
  · have hfault (m : PlantMap) := entryCopy_of_table (tableEntries_of_lt htable) m index.toNat
    exact ⟨readTransaction_range_of_selectors (sel := [table, index]) rfl rfl hacc (hfault _),
      readTransaction_range_of_selectors (sel := [table, index]) rfl rfl hacc (hfault _)⟩
  · have hfault (m : PlantMap) := entryCopy_of_le hn hindex m
    exact ⟨readTransaction_range_of_selectors (sel := [table, index]) rfl rfl hacc (hfault _),
      readTransaction_range_of_selectors (sel := [table, index]) rfl rfl hacc (hfault _)⟩
  · obtain ⟨staged, hstaged⟩ := exists_entryImage s.plant.staged hn hindex
    obtain ⟨active, hactive⟩ := exists_entryImage s.plant.active hn hindex
    have hcopy {m : PlantMap} {image : List Byte} (himage : entryImage m table.toNat index.toNat = some image) :
        entryCopy m table.toNat index.toNat = .ok (table :: index :: padTo 32 image) := by
      rw [entryCopy_of_lt hn hindex himage, byteOf_toNat_self, byteOf_toNat_self]
    exact ⟨⟨staged, hstaged, readTransaction_copied_of_selectors (sel := [table, index]) rfl rfl hacc (hcopy hstaged)⟩,
      active, hactive, readTransaction_copied_of_selectors (sel := [table, index]) rfl rfl hacc (hcopy hactive)⟩

/-! ## READ QUEUE (R112) -/

/-- A sum of records of 40-bit energies is at most as many times 2^40 - 1. -/
theorem queueContent_le {q : List QueueRecord} (h : ∀ r ∈ q, ∀ c, r.energy.get c ≤ 1099511627775) (c : Carrier) :
    (queueContent q).get c ≤ q.length * 1099511627775 := by
  have hsum := List.sum_le_card_nsmul (q.map fun r => r.energy.get c) 1099511627775 fun x hx => by
    obtain ⟨r, hr, rfl⟩ := List.mem_map.mp hx
    exact h r hr c
  simpa [queueContent, Kj.get_sum, List.map_map, Function.comp_def] using hsum

/-- What the residence queues answer, by furnace and selector. -/
theorem queueCopy_queue {s : State} {furnace : Nat} {f : Fin 4} (hf : furnace = f.val) :
    queueCopy s furnace 255 = .ok (queueBytes (s.plant.active.furnaces.get f).enabled (s.furnaces.get f)) := by
  rw [queueCopy, toIdx_eq_some.mpr hf]
  rfl

theorem queueCopy_record {s : State} {furnace sel : Nat} {f : Fin 4} {r : QueueRecord} (hf : furnace = f.val)
    (hsel : sel ≤ 63) (hr : (s.furnaces.get f).queue[sel]? = some r) : queueCopy s furnace sel = .ok (recordBytes sel r) := by
  rw [queueCopy, toIdx_eq_some.mpr hf]
  dsimp only
  rw [if_neg (by omega), if_neg (by omega), hr]

theorem queueCopy_of_no_record {s : State} {furnace sel : Nat} {f : Fin 4} (hf : furnace = f.val) (hsel : sel ≠ 255)
    (h : 63 < sel ∨ (s.furnaces.get f).queue.length ≤ sel) :
    queueCopy s furnace sel = .error (.range ⟨3, f.val, 2⟩) := by
  rw [queueCopy, toIdx_eq_some.mpr hf]
  dsimp only
  rw [if_neg hsel, hf]
  split
  · rfl
  · rw [List.getElem?_eq_none (h.resolve_left ‹_›)]
    rfl

theorem queueCopy_of_furnace {s : State} {furnace : Nat} (h : 3 < furnace) (sel : Nat) :
    queueCopy s furnace sel = .error (.range ⟨3, furnace, 1⟩) := by
  rw [queueCopy, toIdx_of_le (Nat.succ_le_of_lt h)]
  rfl

/-- Settles O12: the queue view, a record view, or a refusal, by furnace and selector. -/
theorem readQueueCopiesTheView : Obligations.ReadQueueCopiesTheView := by
  refine ⟨fun s hs f c => ?_, fun p furnace sel rest s hacc => ⟨fun f hf => ⟨?_, ?_, ?_⟩, fun hf => ?_⟩⟩
  · obtain ⟨hlength, -, -, hrecords⟩ := hs f
    have hcontent := queueContent_le hrecords c
    omega
  · rintro rfl
    exact readTransaction_copied_of_selectors (sel := [furnace, 0xFF]) rfl rfl hacc (queueCopy_queue hf)
  · intro r hsel hr
    refine readTransaction_copied_of_selectors (sel := [furnace, sel]) rfl rfl hacc ((queueCopy_record hf hsel hr).trans ?_)
    rw [recordBytes, byteOf_toNat_self]
    rfl
  · intro hsel h
    have hne : sel.toNat ≠ 255 := fun h => hsel (BitVec.eq_of_toNat_eq h)
    exact readTransaction_range_of_selectors (sel := [furnace, sel]) rfl rfl hacc (queueCopy_of_no_record hf hne h)
  · exact readTransaction_range_of_selectors (sel := [furnace, sel]) rfl rfl hacc (queueCopy_of_furnace hf _)

/-! ## READ STORE (R183) -/

/-- Settles O15: the store's answer, by its state and the selector. -/
theorem readStoreCopiesTheImage : Obligations.ReadStoreCopiesTheImage := by
  intro p sel rest wpN s hacc
  refine ⟨fun hbusy => ?_, fun hidle hsel => ?_, fun hidle hsel => ?_, fun hidle hne hsel => ?_⟩
  · have hcopy : storeCopy s wpN sel.toNat = .error (.result .refusedBusy) := by rw [storeCopy, if_pos hbusy]
    exact readTransaction_refused_of_selectors (sel := [sel]) rfl rfl hacc hcopy
  · subst hsel
    have hcopy : storeCopy s wpN 255 = .ok (storeStatusBytes s.store wpN) := by simp [storeCopy, hidle]
    refine (readTransaction_copied_of_selectors (sel := [0xFF]) rfl rfl hacc hcopy).trans ?_
    simp only [storeStatusBytes, Image.bytes, Nat.zero_add]
    rfl
  · have hcopy : storeCopy s wpN sel.toNat = .ok (sel :: Image.bytes s.store.image (sel.toNat * 32) 32) := by
      rw [storeCopy, hidle, if_neg Bool.false_ne_true, if_neg (by omega), if_neg (by omega), byteOf_toNat_self]
    exact readTransaction_copied_of_selectors (sel := [sel]) rfl rfl hacc hcopy
  · have hne' : sel.toNat ≠ 255 := fun h => hne (BitVec.eq_of_toNat_eq h)
    have hcopy : storeCopy s wpN sel.toNat = .error (.range ⟨0, sel.toNat, 1⟩) := by
      rw [storeCopy, hidle, if_neg Bool.false_ne_true, if_neg hne', if_pos hsel]
      rfl
    exact readTransaction_range_of_selectors (sel := [sel]) rfl rfl hacc hcopy

end Sys2Proof.Machine
end

section
/-! PROOFS. READ RESULT and READ BANK RECORD (R141, R142, R155 to R158, R186): the order of their checks, and the copies field by field. -/

namespace Sys2Proof.Machine

/-! ## READ RESULT (R141) -/

theorem resultKindOfCode_of_lt {kind : Nat} (h : 5 < kind) : resultKindOfCode kind = none := by
  match kind, h with
  | _ + 6, _ => rfl

theorem resultCopy_of_kind {kind : Nat} (h : 5 < kind) (s : State) (index : Nat) (view : Byte) :
    resultCopy s kind index view = .error (.range ⟨0, kind, 1⟩) := by
  rw [resultCopy, resultKindOfCode_of_lt h]
  rfl

section Result
variable {s : State} {kind index : Nat} {view : Byte} {k : ResultKind} (hkind : resultKindOfCode kind = some k)
include hkind

theorem resultCopy_of_index (hindex : (resultKindShape k).1 ≤ index) :
    resultCopy s kind index view = .error (.range ⟨(resultKindShape k).2, index, 2⟩) := by
  simp only [resultCopy, hkind, if_pos hindex, rangeFault]

theorem resultCopy_of_view (hindex : index < (resultKindShape k).1)
    (hview : viewOfByte view = none ∨ ∃ v half, viewOfByte view = some (v, half) ∧ resultViewAllowed k v half = false) :
    resultCopy s kind index view = .error (.range ⟨(resultKindShape k).2, index, 3⟩) := by
  obtain hnone | ⟨v, half, hsome, hallowed⟩ := hview
  · simp only [resultCopy, hkind, if_neg (Nat.not_le.mpr hindex), hnone, rangeFault]
  · simp only [resultCopy, hkind, if_neg (Nat.not_le.mpr hindex), hsome, hallowed, Bool.not_false, if_true, rangeFault]

theorem resultCopy_of_published {v : View} {half : Bool} {t : ResultTable} (hindex : index < (resultKindShape k).1)
    (hview : viewOfByte view = some (v, half)) (hallowed : resultViewAllowed k v half = true) (ht : s.published = some t) :
    resultCopy s kind index view = .ok (resultPart t k index v) := by
  simp only [resultCopy, hkind, if_neg (Nat.not_le.mpr hindex), hview, hallowed, Bool.not_true, Bool.false_eq_true, if_false,
    ht]

theorem resultCopy_of_empty {v : View} {half : Bool} (hindex : index < (resultKindShape k).1)
    (hview : viewOfByte view = some (v, half)) (hallowed : resultViewAllowed k v half = true) (ht : s.published = none) :
    resultCopy s kind index view = if k = .header then .ok (resultHeaderBytes none) else stateFault := by
  simp only [resultCopy, hkind, if_neg (Nat.not_le.mpr hindex), hview, hallowed, Bool.not_true, Bool.false_eq_true, if_false,
    ht]

end Result

/-! ### The bytes of an entry (13.6) -/

/-- An absent entry is its interval number and zeros (R141). -/
theorem absentBytes_eq (n : BitVec 32) (len : Nat) : absentBytes n (4 + len) = toBE 4 n.toNat ++ List.replicate len 0 := by
  rw [absentBytes, padTo, length_toBE, Nat.add_sub_cancel_left]

theorem energyBytes_nil (v : View) : energyBytes v [] = [] := rfl

theorem energyBytes_cons (v : View) (k : Kj) (ks : List Kj) :
    energyBytes v (k :: ks) = toBE 7 (viewEnergy v k) ++ energyBytes v ks := rfl

/-- A flag in its bit of a sum. -/
theorem sumIdx_bits {n : Nat} (t : Tab n Bool) :
    (sumIdx n fun i => (t.get i).toNat * 2 ^ i.val) = ∑ i : Fin n, if t.get i then 2 ^ i.val else 0 := by
  rw [sumIdx_eq_sum]
  refine Finset.sum_congr rfl fun i _ => ?_
  cases t.get i <;> simp

theorem resultPart_header (t : ResultTable) (v : View) : resultPart t .header 0 v =
    toBE 4 t.header.interval.toNat ++ toBE 4 t.header.period.toNat
      ++ [byteOf ((if t.header.mark.isSome then 64 else 0) + causeCode t.header.mark),
        byteOf (∑ l : Fin 8, if t.header.linksUsed.get l then 2 ^ l.val else 0)]
      ++ toBE 2 (∑ l : Fin 12, if t.header.linesUsed.get l then 2 ^ l.val else 0) ++ [t.header.findings.byte] := by
  have hmark : 64 * t.header.mark.isSome.toNat = if t.header.mark.isSome then 64 else 0 := by
    cases t.header.mark <;> rfl
  simp only [resultPart, resultHeaderBytes, sumIdx_bits, hmark]

/-- Settles O13: the checks in their order, then each part's bytes in each view. -/
theorem readResultCopiesThePublishedTable : Obligations.ReadResultCopiesThePublishedTable := by
  refine ⟨fun p kind index view rest s hacc => ⟨fun hkind => ?_, fun k hkind => ⟨fun hindex => ?_, fun hindex hview => ?_,
    fun v half hindex hview hallowed => ?_⟩⟩, fun t v => ?_⟩
  · exact readTransaction_range_of_selectors (sel := [kind, index, view]) rfl rfl hacc (resultCopy_of_kind hkind _ _ _)
  · exact readTransaction_range_of_selectors (sel := [kind, index, view]) rfl rfl hacc (resultCopy_of_index hkind hindex)
  · exact readTransaction_range_of_selectors (sel := [kind, index, view]) rfl rfl hacc
      (resultCopy_of_view hkind hindex hview)
  · refine ⟨fun t ht => ?_, fun hempty hheader => ?_, fun hempty hheader => ?_⟩
    · exact readTransaction_copied_of_selectors (sel := [kind, index, view]) rfl rfl hacc
        (resultCopy_of_published hkind hindex hview hallowed ht)
    · exact readTransaction_copied_of_selectors (sel := [kind, index, view]) rfl rfl hacc
        ((resultCopy_of_empty hkind hindex hview hallowed hempty).trans (if_pos hheader))
    · exact readTransaction_refused_of_selectors (sel := [kind, index, view]) rfl rfl hacc
        ((resultCopy_of_empty hkind hindex hview hallowed hempty).trans (if_neg hheader))
  · refine ⟨fun i hi => ?_, fun i hi => ?_, fun i hi => ?_, fun i hi => ?_, resultPart_header t v, fun i x hx => ?_,
      fun i x hx => ?_, fun i x hx => ?_, fun i x hx => ?_, ?_⟩
    · rw [resultPart, toIdx_val, Option.bind_some, hi]
      exact absentBytes_eq t.header.interval 17
    · rw [resultPart, toIdx_val, Option.bind_some, hi]
      exact absentBytes_eq t.header.interval 55
    · rw [resultPart, toIdx_val, Option.bind_some, hi]
      exact absentBytes_eq t.header.interval 59
    · rw [resultPart, toIdx_val, Option.bind_some, hi]
      exact absentBytes_eq t.header.interval 24
    · rw [resultPart, toIdx_val, Option.bind_some, hx]
      simp only [entryResult, pointResultBytes, List.append_assoc]
      rfl
    · rw [resultPart, toIdx_val, Option.bind_some, hx]
      cases v <;> simp only [entryResult, lineResultBytes, energyBytes_cons, energyBytes_nil, List.append_assoc] <;> rfl
    · rw [resultPart, toIdx_val, Option.bind_some, hx]
      cases v <;> simp only [entryResult, furnaceResultBytes, energyBytes_cons, energyBytes_nil, List.append_assoc] <;> rfl
    · rw [resultPart, toIdx_val, Option.bind_some, hx]
      cases v <;> simp only [entryResult, poolResultBytes, energyBytes_cons, energyBytes_nil, List.append_assoc] <;> rfl
    · cases v <;> simp only [resultPart, plantResultBytes, energyBytes_cons, energyBytes_nil, List.append_assoc] <;> rfl

/-! ## READ BANK RECORD (R155 to R158) -/

theorem bankKindOfCode_of_lt {kind : Nat} (h : 4 < kind) : bankKindOfCode kind = none := by
  match kind, h with
  | _ + 5, _ => rfl

theorem bankCopy_of_role {role : Nat} (h : 1 < role) (s : State) (kind index : Nat) (view : Byte) :
    bankCopy s role kind index view = .error (.range ⟨0, role, 1⟩) := by
  rw [bankCopy, if_pos h]
  rfl

theorem bankCopy_of_kind {role kind : Nat} (hrole : role ≤ 1) (h : 4 < kind) (s : State) (index : Nat) (view : Byte) :
    bankCopy s role kind index view = .error (.range ⟨0, kind, 2⟩) := by
  rw [bankCopy, if_neg (Nat.not_lt.mpr hrole), bankKindOfCode_of_lt h]
  rfl

section BankRead
variable {s : State} {role kind index : Nat} {view : Byte} {k : BankKind} (hrole : role ≤ 1) (hkind : bankKindOfCode kind = some k)
include hrole hkind

theorem bankCopy_of_index (hindex : (bankKindShape k).1 ≤ index) :
    bankCopy s role kind index view = .error (.range ⟨(bankKindShape k).2, index, 3⟩) := by
  simp only [bankCopy, if_neg (Nat.not_lt.mpr hrole), hkind, if_pos hindex, rangeFault]

theorem bankCopy_of_view (hindex : index < (bankKindShape k).1)
    (hview : viewOfByte view = none ∨ ∃ v half, viewOfByte view = some (v, half) ∧ bankViewAllowed k v half = false) :
    bankCopy s role kind index view = .error (.range ⟨(bankKindShape k).2, index, 4⟩) := by
  obtain hnone | ⟨v, half, hsome, hallowed⟩ := hview
  · simp only [bankCopy, if_neg (Nat.not_lt.mpr hrole), hkind, if_neg (Nat.not_le.mpr hindex), hnone, rangeFault]
  · simp only [bankCopy, if_neg (Nat.not_lt.mpr hrole), hkind, if_neg (Nat.not_le.mpr hindex), hsome, hallowed,
      Bool.not_false, if_true, rangeFault]

theorem bankCopy_of_bank {v : View} {half : Bool} {i : Fin 2} (hindex : index < (bankKindShape k).1)
    (hview : viewOfByte view = some (v, half)) (hallowed : bankViewAllowed k v half = true)
    (hi : s.bankInRole (role == 1) = some i) :
    bankCopy s role kind index view = .ok (bankPrefix i (s.banks.get i) ++ bankPart s (s.banks.get i) k index v half) := by
  simp only [bankCopy, if_neg (Nat.not_lt.mpr hrole), hkind, if_neg (Nat.not_le.mpr hindex), hview, hallowed, Bool.not_true,
    Bool.false_eq_true, if_false, hi]

theorem bankCopy_of_no_bank {v : View} {half : Bool} (hindex : index < (bankKindShape k).1)
    (hview : viewOfByte view = some (v, half)) (hallowed : bankViewAllowed k v half = true)
    (hnone : s.bankInRole (role == 1) = none) : bankCopy s role kind index view = .error (.result .refusedState) := by
  simp only [bankCopy, if_neg (Nat.not_lt.mpr hrole), hkind, if_neg (Nat.not_le.mpr hindex), hview, hallowed, Bool.not_true,
    Bool.false_eq_true, if_false, hnone, stateFault]

end BankRead

/-- With no marked completion due, the moment before the swap is any moment. -/
theorem State.atMoment_beforeSwap_eq {s : State} (h : ∀ i, s.ctrl.setWith .computing = some i → s.engine.phase = .totalled →
    (s.ctrl.sets.get i).mark = none ∨ s.working = none) : s.atMoment .beforeSwap = s := by
  unfold State.atMoment State.atStage
  dsimp only
  split
  · rename_i i hi
    split
    · rename_i hphase
      obtain hmark | hworking := h i hi hphase
      · cases hworking : s.working <;> simp only [State.bankInterval, hmark, hworking]
      · simp only [State.bankInterval, hworking]
    · rfl
  · rfl

/-- A line record's total in a view is the sum of its three energies (R156). -/
theorem viewEnergy_total (v : View) (r : LineBankRecord) :
    viewEnergy v r.total = viewEnergy v r.furnaceShare + viewEnergy v r.direct + viewEnergy v r.poolShare := by
  cases v with
  | totals => simp only [viewEnergy, LineBankRecord.total, Kj.total, Kj.add]; omega
  | carrier c => simp only [viewEnergy, LineBankRecord.total, Kj.get_add]

/-- Settles O14: the checks in their order, then each part's bytes in each view and half. -/
theorem readBankRecordCopiesTheBank : Obligations.ReadBankRecordCopiesTheBank := by
  refine ⟨fun r s hdue => ?_, fun p role kind index view rest s hacc => ⟨fun hrole => ?_, fun hrole hkind => ?_,
    fun k hrole hkind => ⟨fun hindex => ?_, fun hindex hview => ?_, fun v half hindex hview hallowed => ?_⟩⟩,
    fun s b v => ⟨?_, fun f => ⟨?_, ?_⟩, fun l => ⟨?_, ?_⟩, fun q => ?_, ?_⟩⟩
  · exact congrArg (fun s => Host.Outcome.next (readTransaction .readBankRecord r false _ s))
      (State.atMoment_beforeSwap_eq hdue)
  · exact readTransaction_range_of_selectors (sel := [role, kind, index, view]) rfl rfl hacc (bankCopy_of_role hrole ..)
  · exact readTransaction_range_of_selectors (sel := [role, kind, index, view]) rfl rfl hacc
      (bankCopy_of_kind hrole hkind ..)
  · exact readTransaction_range_of_selectors (sel := [role, kind, index, view]) rfl rfl hacc
      (bankCopy_of_index hrole hkind hindex)
  · exact readTransaction_range_of_selectors (sel := [role, kind, index, view]) rfl rfl hacc
      (bankCopy_of_view hrole hkind hindex hview)
  · refine ⟨fun i hi => ?_, fun hfrozen hnone => ?_⟩
    · have hbank : s.bankInRole (role.toNat == 1) = some i := by
        obtain ⟨rfl, rfl⟩ | ⟨rfl, hi⟩ := hi
        · rfl
        · exact hi
      exact readTransaction_copied_of_selectors (sel := [role, kind, index, view]) rfl rfl hacc
        (bankCopy_of_bank hrole hkind hindex hview hallowed hbank)
    · subst hfrozen
      exact readTransaction_refused_of_selectors (sel := [1, kind, index, view]) rfl rfl hacc
        (bankCopy_of_no_bank hrole hkind hindex hview hallowed hnone)
  · rfl
  · simp only [bankPart, toIdx_val, furnaceRecordBytes, energyBytes_cons, energyBytes_nil, List.append_assoc]
    cases v <;> rfl
  · simp only [bankPart, toIdx_val, furnaceRecordBytes]
    cases v <;> rfl
  · simp only [bankPart, toIdx_val, lineRecordBytes, energyBytes_cons, energyBytes_nil, viewEnergy_total, List.append_assoc]
    cases v <;> rfl
  · simp only [bankPart, toIdx_val, lineRecordBytes]
    cases v <;> rfl
  · simp only [bankPart, toIdx_val, energyBytes_cons, energyBytes_nil, List.append_assoc]
    cases v <;> rfl
  · simp only [bankPart, plantRecordBytes, energyBytes_cons, energyBytes_nil, List.append_assoc]
    cases v <;> rfl

end Sys2Proof.Machine
end

section
/-! PROOFS. The write commands (R9 to R13, R45, R51 to R54, R61 to R67, R103, R109, R180 to R182): numbers and codes read back from
their bytes, and what each owner answers. -/

namespace Sys2Proof.Machine

/-! ## Numbers in bytes, most significant first (R185) -/

theorem beNat_append (a b : List Byte) : beNat (a ++ b) = beNat a * 256 ^ b.length + beNat b := by
  induction b using List.reverseRecOn with
  | nil => simp [beNat]
  | append_singleton b x ih =>
    rw [← List.append_assoc, beNat_append_singleton, ih, beNat_append_singleton, List.length_append, List.length_singleton,
      pow_succ]
    ring

theorem beNat_cons (x : Byte) (b : List Byte) : beNat (x :: b) = x.toNat * 256 ^ b.length + beNat b := by
  have h := beNat_append [x] b
  rwa [List.singleton_append, show beNat [x] = x.toNat by simp [beNat]] at h

/-- A number below 256^n reads back from its `n` bytes; a larger one loses its upper bytes. -/
@[simp] theorem beNat_toBE (n x : Nat) : beNat (toBE n x) = x % 256 ^ n := by
  induction n with
  | zero => simp [toBE, beNat, Nat.mod_one]
  | succ n ih =>
    have hsplit : x % 256 ^ (n + 1) = x % 256 ^ n + 256 ^ n * (x / 256 ^ n % 256) := by rw [pow_succ, Nat.mod_mul]
    rw [toBE, beNat_cons, ih, length_toBE, BitVec.toNat_ofNat, hsplit, Nat.add_comm, Nat.mul_comm]

/-- The bytes of a field that starts where `a` ends. -/
theorem beAt_append_toBE {a c : List Byte} {k : Nat} (hk : a.length = k) (n x : Nat) :
    beAt (a ++ toBE n x ++ c) k n = x % 256 ^ n := by
  rw [beAt, List.append_assoc, List.drop_left' hk, List.take_left' (length_toBE n x), beNat_toBE]

theorem beAt_toBE (n x : Nat) : beAt (toBE n x) 0 n = x % 256 ^ n := by
  have h := beAt_append_toBE (a := []) (c := []) rfl n x
  rwa [List.nil_append, List.append_nil] at h

/-- A machine word reads back from its bytes. -/
theorem ofNat_toNat_mod {w n : Nat} (hw : 2 ^ w = 256 ^ n) (x : BitVec w) : BitVec.ofNat w (x.toNat % 256 ^ n) = x := by
  rw [← hw, Nat.mod_eq_of_lt x.isLt, BitVec.ofNat_toNat, BitVec.setWidth_eq]

/-! ## Codes (13.3) -/

@[simp] theorem furnaceStateOfCode_code (st : FurnaceState) : furnaceStateOfCode (furnaceStateCode st) = some st := by
  cases st <;> rfl

theorem furnaceStateOfCode_of_lt {x : Nat} (h : 2 < x) : furnaceStateOfCode x = none := by
  match x, h with
  | _ + 3, _ => rfl

@[simp] theorem lineStateOfCode_code (st : LineState) : lineStateOfCode (lineStateCode st) = some st := by
  cases st <;> rfl

theorem lineStateOfCode_of_lt {x : Nat} (h : 3 < x) : lineStateOfCode x = none := by
  match x, h with
  | _ + 4, _ => rfl

/-! ## A write taken by its owner (R165 check 5) -/

section Write
variable {c : Command} {p : Port} {bytes : List Byte} {o : Owner} {s s' : State}

/-- The arguments of a write command of its length are all kept (R160). -/
theorem length_le_of_lengthSuits {n : Nat} (hwrite : isWrite c = true) (hlength : lengthSuits c (1 + n) = true) : n ≤ 97 := by
  cases c <;> cases hwrite
  all_goals
    simp only [lengthSuits, beq_iff_eq, decide_eq_true_eq] at hlength
    omega

/-- Outside BOOTING, from a port with the right to it and of its length, a command's result is its owner's. -/
theorem writeTransaction_result_of_owner {r : Result} (hacc : s.ctrl.acc ≠ .booting) (hwrite : isWrite c = true)
    (hright : hasRight p c = true) (hlength : lengthSuits c (1 + bytes.length) = true) (ho : o bytes s = (s', .result r)) :
    (.next (writeTransaction c ⟨p, bytes⟩ o s) : Host.Outcome State Fault Refusal) =
      .next (s'.answered p r (s.writeSent p bytes.length)) :=
  congrArg Host.Outcome.next (writeTransaction_result (t := ⟨p, bytes⟩) hacc hright hlength
    ((congrArg (o · s) (List.take_of_length_le (length_le_of_lengthSuits hwrite hlength))).trans ho))

/-- And the detail of its owner's refusal is the port's (R169). -/
theorem writeTransaction_range_of_owner {d : Detail} (hacc : s.ctrl.acc ≠ .booting) (hwrite : isWrite c = true)
    (hright : hasRight p c = true) (hlength : lengthSuits c (1 + bytes.length) = true) (ho : o bytes s = (s', .range d)) :
    (.next (writeTransaction c ⟨p, bytes⟩ o s) : Host.Outcome State Fault Refusal) =
      .next (s'.answeredRange p d (s.writeSent p bytes.length)) :=
  congrArg Host.Outcome.next (writeTransaction_range (t := ⟨p, bytes⟩) hacc hright hlength
    ((congrArg (o · s) (List.take_of_length_le (length_le_of_lengthSuits hwrite hlength))).trans ho))

end Write

@[simp] theorem natAt_cons_zero (b : Byte) (bs : List Byte) : natAt (b :: bs) 0 = b.toNat := rfl

@[simp] theorem natAt_cons_succ (b : Byte) (bs : List Byte) (k : Nat) : natAt (b :: bs) (k + 1) = natAt bs k := rfl

/-! ## The residence queues' commands (R103, R109) -/

section FurnaceOwners
variable {furnace v : Byte} {s : State} {f : Fin 4}

theorem setFurnaceStateAt_of_furnace (h : 3 < furnace.toNat) :
    setFurnaceStateAt [furnace, v] s = (s, .range ⟨3, furnace.toNat, 1⟩) := by
  simp [setFurnaceStateAt, toIdx_of_le (Nat.succ_le_of_lt h), tableFurnace]

theorem setFurnaceStateAt_of_state (hf : furnace.toNat = f.val) (hv : 2 < v.toNat) :
    setFurnaceStateAt [furnace, v] s = (s, .range ⟨3, f.val, 2⟩) := by
  simp [setFurnaceStateAt, hf, furnaceStateOfCode_of_lt hv, tableFurnace]

theorem setFurnaceStateAt_done {st : FurnaceState} (hf : furnace.toNat = f.val) (hv : v.toNat = furnaceStateCode st) :
    setFurnaceStateAt [furnace, v] s = (s.putFurnace f { s.furnaces.get f with state := st }, .result .done) := by
  simp [setFurnaceStateAt, hf, hv]

theorem setLagAt_of_furnace (h : 3 < furnace.toNat) : setLagAt [furnace, v] s = (s, .range ⟨3, furnace.toNat, 1⟩) := by
  simp [setLagAt, toIdx_of_le (Nat.succ_le_of_lt h), tableFurnace]

theorem setLagAt_of_lag (hf : furnace.toNat = f.val) (hv : 63 < v.toNat) :
    setLagAt [furnace, v] s = (s, .range ⟨3, f.val, 2⟩) := by
  simp [setLagAt, hf, hv, tableFurnace]

theorem setLagAt_of_le (hf : furnace.toNat = f.val) (hv : v.toNat ≤ 63) :
    setLagAt [furnace, v] s = s.giveLag f v.toNat := by
  simp [setLagAt, hf, Nat.not_lt.mpr hv]

end FurnaceOwners

/-- A lag is active at once outside accounting, and pending within (R109). -/
theorem State.giveLag_of_not_accounting {s : State} (h : s.ctrl.acc = .unconfigured ∨ s.ctrl.acc = .ready) (f : Fin 4)
    (lag : Nat) :
    s.giveLag f lag = (s.putFurnace f { s.furnaces.get f with lag := lag, pendingLag := none }, .result .done) := by
  obtain h | h := h <;> simp [State.giveLag, State.accounting, h]

theorem State.giveLag_of_accounting {s : State} (h : s.ctrl.acc = .running ∨ s.ctrl.acc = .stopping) (f : Fin 4) (lag : Nat) :
    s.giveLag f lag = (s.putFurnace f { s.furnaces.get f with pendingLag := some lag }, .result .accepted) :=
  if_pos (State.accounting_iff.mpr h)

/-- Settles O17: the two commands by what the residence queues answer. -/
theorem furnaceCommandsFromPortM : Obligations.FurnaceCommandsFromPortM := by
  intro furnace v s hacc
  refine ⟨fun hfurnace => ⟨?_, ?_⟩, fun f hf => ⟨fun hv => ?_, fun st hv => ?_, fun hv => ?_, fun hv h => ?_, fun hv h => ?_⟩⟩
  · exact writeTransaction_range_of_owner hacc rfl rfl rfl (setFurnaceStateAt_of_furnace hfurnace)
  · exact writeTransaction_range_of_owner hacc rfl rfl rfl (setLagAt_of_furnace hfurnace)
  · exact writeTransaction_range_of_owner hacc rfl rfl rfl (setFurnaceStateAt_of_state hf hv)
  · exact writeTransaction_result_of_owner hacc rfl rfl rfl (setFurnaceStateAt_done hf hv)
  · exact writeTransaction_range_of_owner hacc rfl rfl rfl (setLagAt_of_lag hf hv)
  · exact writeTransaction_result_of_owner hacc rfl rfl rfl
      ((setLagAt_of_le hf hv).trans (State.giveLag_of_not_accounting h f _))
  · exact writeTransaction_result_of_owner hacc rfl rfl rfl
      ((setLagAt_of_le hf hv).trans (State.giveLag_of_accounting h f _))

/-! ## The collection controller's commands from Port F (R61, R62) -/

/-- The argument bytes of a LINE TALLY. -/
def tallyArgs (line : Byte) (x : Tally) : List Byte :=
  line :: (toBE 2 x.tag.toNat ++ toBE 4 x.gobs.toNat ++ toBE 4 x.packed.toNat ++ toBE 2 x.gobMass.toNat)

/-! A tally reads back from its argument bytes (R61). -/

theorem tag_of_tallyArgs (line : Byte) (x : Tally) : BitVec.ofNat 16 (beAt (tallyArgs line x) 1 2) = x.tag := by
  have htag : beAt (tallyArgs line x) 1 2 = _ := beAt_append_toBE (a := [line])
    (c := toBE 4 x.gobs.toNat ++ toBE 4 x.packed.toNat ++ toBE 2 x.gobMass.toNat) rfl 2 x.tag.toNat
  rw [htag, ofNat_toNat_mod (by decide)]

theorem gobs_of_tallyArgs (line : Byte) (x : Tally) : BitVec.ofNat 32 (beAt (tallyArgs line x) 3 4) = x.gobs := by
  have hgobs : beAt (tallyArgs line x) 3 4 = _ := beAt_append_toBE (a := line :: toBE 2 x.tag.toNat)
    (c := toBE 4 x.packed.toNat ++ toBE 2 x.gobMass.toNat) rfl 4 x.gobs.toNat
  rw [hgobs, ofNat_toNat_mod (by decide)]

theorem packed_of_tallyArgs (line : Byte) (x : Tally) : BitVec.ofNat 32 (beAt (tallyArgs line x) 7 4) = x.packed := by
  have hpacked : beAt (tallyArgs line x) 7 4 = _ := beAt_append_toBE (a := line :: toBE 2 x.tag.toNat ++ toBE 4 x.gobs.toNat)
    (c := toBE 2 x.gobMass.toNat) rfl 4 x.packed.toNat
  rw [hpacked, ofNat_toNat_mod (by decide)]

theorem gobMass_of_tallyArgs (line : Byte) (x : Tally) : BitVec.ofNat 16 (beAt (tallyArgs line x) 11 2) = x.gobMass := by
  have hmass : beAt (tallyArgs line x) 11 2 = _ := beAt_append_toBE
    (a := line :: toBE 2 x.tag.toNat ++ toBE 4 x.gobs.toNat ++ toBE 4 x.packed.toNat) (c := []) rfl 2 x.gobMass.toNat
  rw [hmass, ofNat_toNat_mod (by decide)]

section LineOwners
variable {line v : Byte} {x : Tally} {s : State} {l : Fin 12}

theorem lineTallyAt_of_line (h : 11 < line.toNat) :
    lineTallyAt (tallyArgs line x) s = (s, .range ⟨4, line.toNat, 1⟩) := by
  have hline : natAt (tallyArgs line x) 0 = line.toNat := rfl
  simp only [lineTallyAt, hline, toIdx_of_le (Nat.succ_le_of_lt h), tableLine]

theorem lineTallyAt_of_mass (hl : line.toNat = l.val) (hmass : x.gobMass = 0) :
    lineTallyAt (tallyArgs line x) s = (s, .range ⟨4, l.val, 5⟩) := by
  have hline : natAt (tallyArgs line x) 0 = l.val := hl
  simp only [lineTallyAt, gobMass_of_tallyArgs, hline, toIdx_val, tableLine, if_pos hmass]

theorem lineTallyAt_of_state (hl : line.toNat = l.val) (hmass : x.gobMass ≠ 0)
    (hstate : (!(s.plant.active.lines.get l).enabled || !s.accounting) = true) :
    lineTallyAt (tallyArgs line x) s = (s, .result .refusedState) := by
  have hline : natAt (tallyArgs line x) 0 = l.val := hl
  simp only [lineTallyAt, gobMass_of_tallyArgs, hline, toIdx_val, if_neg hmass, if_pos hstate]

section Judged
variable (hl : line.toNat = l.val) (hmass : x.gobMass ≠ 0)
  (hstate : (!(s.plant.active.lines.get l).enabled || !s.accounting) = false)
include hl hmass hstate

theorem lineTallyAt_of_late (hj : s.judgeTag x.tag = .late) :
    lineTallyAt (tallyArgs line x) s = (s, .result .refusedLate) := by
  have hline : natAt (tallyArgs line x) 0 = l.val := hl
  simp only [lineTallyAt, gobMass_of_tallyArgs, tag_of_tallyArgs, hline, toIdx_val, if_neg hmass, hstate,
    Bool.false_eq_true, if_false, hj]

theorem lineTallyAt_of_ahead (hj : s.judgeTag x.tag = .ahead) :
    lineTallyAt (tallyArgs line x) s = (s, .result .refusedAhead) := by
  have hline : natAt (tallyArgs line x) 0 = l.val := hl
  simp only [lineTallyAt, gobMass_of_tallyArgs, tag_of_tallyArgs, hline, toIdx_val, if_neg hmass, hstate,
    Bool.false_eq_true, if_false, hj]

theorem lineTallyAt_of_taken {i : Fin 2} (hj : s.judgeTag x.tag = .taken i) :
    lineTallyAt (tallyArgs line x) s = ((s.placeTally i l x).judgeClosure false, .result .done) := by
  have hline : natAt (tallyArgs line x) 0 = l.val := hl
  simp only [lineTallyAt, gobMass_of_tallyArgs, tag_of_tallyArgs, gobs_of_tallyArgs, packed_of_tallyArgs, hline, toIdx_val,
    if_neg hmass, hstate, Bool.false_eq_true, if_false, hj]

end Judged

theorem setLineStateAt_of_line (h : 11 < line.toNat) : setLineStateAt [line, v] s = (s, .range ⟨4, line.toNat, 1⟩) := by
  simp [setLineStateAt, toIdx_of_le (Nat.succ_le_of_lt h), tableLine]

theorem setLineStateAt_of_state (hl : line.toNat = l.val) (hv : 3 < v.toNat) :
    setLineStateAt [line, v] s = (s, .range ⟨4, l.val, 2⟩) := by
  simp [setLineStateAt, hl, lineStateOfCode_of_lt hv, tableLine]

theorem setLineStateAt_done {st : LineState} (hl : line.toNat = l.val) (hv : v.toNat = lineStateCode st) :
    setLineStateAt [line, v] s = ((s.setLineState l st).judgeClosure false, .result .done) := by
  simp [setLineStateAt, hl, hv]

end LineOwners

/-- Settles O18: a tally reads back from its bytes and is judged in the order of R61. -/
theorem lineTallyIsJudgedAndPlaced : Obligations.LineTallyIsJudgedAndPlaced := by
  intro line tag gobs packed mass s hacc
  let x : Tally := ⟨tag, gobs, packed, mass⟩
  have result {s' : State} {r : Result} (ho : lineTallyAt (tallyArgs line x) s = (s', .result r)) :
      exec (.lineTally ⟨.f, tallyArgs line x⟩) s = .next (s'.answered .f r (s.writeSent .f 13)) :=
    writeTransaction_result_of_owner hacc rfl rfl rfl ho
  have range {d : Detail} (ho : lineTallyAt (tallyArgs line x) s = (s, .range d)) :
      exec (.lineTally ⟨.f, tallyArgs line x⟩) s = .next (s.answeredRange .f d (s.writeSent .f 13)) :=
    writeTransaction_range_of_owner hacc rfl rfl rfl ho
  refine ⟨fun hline => range (lineTallyAt_of_line hline), fun l hl => ?_⟩
  refine ⟨fun hmass => range (lineTallyAt_of_mass hl hmass), fun hmass hstate => ?_, fun hmass henabled hrunning => ?_⟩
  · refine result (lineTallyAt_of_state hl hmass ?_)
    obtain hdisabled | ⟨hrunning, hstopping⟩ := hstate
    · simp [hdisabled]
    · simp [State.accounting, hrunning, hstopping]
  · have hopen : (!(s.plant.active.lines.get l).enabled || !s.accounting) = false := by
      simp [henabled, State.accounting_iff.mpr hrunning]
    exact ⟨fun hlate => result (lineTallyAt_of_late hl hmass hopen hlate),
      fun hahead => result (lineTallyAt_of_ahead hl hmass hopen hahead),
      fun i htaken => result (lineTallyAt_of_taken hl hmass hopen htaken)⟩

/-- Settles O19: the command by what the collection controller answers. -/
theorem setLineStateReachesTheExpectedSet : Obligations.SetLineStateReachesTheExpectedSet := by
  intro line v s hacc
  refine ⟨fun hline => ?_, fun l hl => ⟨fun hv => ?_, fun st hv => ?_⟩⟩
  · exact writeTransaction_range_of_owner hacc rfl rfl rfl (setLineStateAt_of_line hline)
  · exact writeTransaction_range_of_owner hacc rfl rfl rfl (setLineStateAt_of_state hl hv)
  · exact writeTransaction_result_of_owner hacc rfl rfl rfl (setLineStateAt_done hl hv)

/-! ## The plant map's commands (R9, R11) -/

/-- A selector that names no entry is refused with its detail before the image is read (R9 step 2). -/
theorem writeEntry_of_table {table : Nat} (h : tableEntries table = none) (m : PlantMap) (index : Nat) (image : List Byte) :
    writeEntry m table index image = .error ⟨0, table, 0⟩ := by
  simp only [writeEntry, selectorFault_of_table h]

theorem writeEntry_of_le {table n index : Nat} (h : tableEntries table = some n) (hi : n ≤ index) (m : PlantMap)
    (image : List Byte) : writeEntry m table index image = .error ⟨table, index, 0⟩ := by
  simp only [writeEntry, selectorFault_of_entries h, if_neg (Nat.not_lt.mpr hi)]

section MapOwners
variable {table index : Byte} {image b : List Byte} {s : State}

theorem writeStaged_of_pending (h : s.plant.commitPending = true) : writeStaged b s = (s, .result .refusedBusy) := if_pos h

theorem writeStaged_of_error {d : Detail} (h : s.plant.commitPending = false)
    (hwrite : writeEntry s.plant.staged table.toNat index.toNat image = .error d) :
    writeStaged (table :: index :: image) s = (s, .range d) := by
  simp [writeStaged, h, hwrite]

theorem writeStaged_of_ok {m : PlantMap} (h : s.plant.commitPending = false)
    (hwrite : writeEntry s.plant.staged table.toNat index.toNat image = .ok m) :
    writeStaged (table :: index :: image) s = (s.setStaged m, .result .done) := by
  simp [writeStaged, h, hwrite]

theorem discardStagedMap_of_pending (h : s.plant.commitPending = true) :
    discardStagedMap b s = (s, .result .refusedBusy) := if_pos h

theorem discardStagedMap_of_not_pending (h : s.plant.commitPending = false) :
    discardStagedMap b s = (s.setStaged s.plant.active, .result .done) := by
  simp [discardStagedMap, h]

end MapOwners

/-- Settles O20: the two commands by what the plant map answers. -/
theorem stagedMapIsWrittenAndDiscarded : Obligations.StagedMapIsWrittenAndDiscarded := by
  intro table index image s himage hacc
  have hbytes : (table :: index :: image).length = 34 := congrArg (· + 2) himage
  have hlength : lengthSuits .writeStagedEntry (1 + (table :: index :: image).length) = true := by rw [hbytes]; rfl
  have range {d : Detail} (ho : writeStaged (table :: index :: image) s = (s, .range d)) :
      exec (.writeStagedEntry ⟨.e, table :: index :: image⟩) s = .next (s.answeredRange .e d (s.writeSent .e 34)) :=
    hbytes ▸ writeTransaction_range_of_owner hacc rfl rfl hlength ho
  have result {s' : State} {r : Result} (ho : writeStaged (table :: index :: image) s = (s', .result r)) :
      exec (.writeStagedEntry ⟨.e, table :: index :: image⟩) s = .next (s'.answered .e r (s.writeSent .e 34)) :=
    hbytes ▸ writeTransaction_result_of_owner hacc rfl rfl hlength ho
  refine ⟨fun hpending => ⟨result (writeStaged_of_pending hpending),
    writeTransaction_result_of_owner hacc rfl rfl rfl (discardStagedMap_of_pending hpending)⟩, fun hpending =>
    ⟨fun htable => ?_, fun n hn hindex => ?_, fun d hwrite => ?_, fun m hwrite => ?_, ?_⟩⟩
  · exact range (writeStaged_of_error hpending (writeEntry_of_table (tableEntries_of_lt htable) _ _ _))
  · exact range (writeStaged_of_error hpending (writeEntry_of_le hn hindex _ _))
  · exact range (writeStaged_of_error hpending hwrite)
  · exact result (writeStaged_of_ok hpending hwrite)
  · exact writeTransaction_result_of_owner hacc rfl rfl rfl (discardStagedMap_of_not_pending hpending)

/-! ## Starting, stopping and resetting (R51, R64, R65, R67) -/

/-- Settles O24: START ACCOUNTING in READY and CLOSE PERIOD in RUNNING, refused elsewhere. -/
theorem startAndClosePeriod : Obligations.StartAndClosePeriod := by
  intro n s hacc
  refine ⟨fun hready => ⟨?_, fun p => ?_, fun l => ?_⟩, fun hready => ?_, fun hrunning => ?_, fun hrunning => ?_⟩
  · have hn : BitVec.ofNat 32 (beAt (toBE 4 n.toNat) 0 4) = n := by rw [beAt_toBE, ofNat_toNat_mod (by decide)]
    refine writeTransaction_result_of_owner hacc rfl rfl rfl ?_
    rw [startAccountingAt, if_pos hready, hn]
  · rw [SourceTable.allUnset, Tab.get_mapIdx]
    rfl
  · rw [SourceTable.allUnset, Tab.get_mapIdx]
    rfl
  · exact writeTransaction_result_of_owner hacc rfl rfl rfl (if_neg hready)
  · exact writeTransaction_result_of_owner hacc rfl rfl rfl (if_pos hrunning)
  · exact writeTransaction_result_of_owner hacc rfl rfl rfl (if_neg hrunning)

/-- Settles O25: STOP by the latest interval not yet computed. -/
theorem stopMarksTheLatestInterval : Obligations.StopMarksTheLatestInterval := by
  intro s hacc
  have result {s' : State} {r : Result} (ho : stopAccountingAt [] s = (s', .result r)) :
      exec (.stopAccounting ⟨.e, []⟩) s = .next (s'.answered .e r (s.writeSent .e 0)) :=
    writeTransaction_result_of_owner hacc rfl rfl rfl ho
  refine ⟨fun hrunning => result (if_neg hrunning), fun hrunning => ?_⟩
  have hstop : stopAccountingAt [] s = (s.stopRun, .result .done) := if_pos hrunning
  have hlatch (st : SetStatus) : (s.setLatch false).ctrl.setWith st = s.ctrl.setWith st := rfl
  refine ⟨fun i hopened => result ?_, fun i hopened hwaiting => result ?_, fun i hopened hwaiting hcomputing => result ?_,
    fun hopened hwaiting hcomputing => ?_⟩
  · rw [hstop, State.stopRun]
    simp only [hlatch, hopened]
    rfl
  · rw [hstop, State.stopRun]
    simp only [hlatch, hopened, hwaiting]
    rfl
  · rw [hstop, State.stopRun]
    simp only [hlatch, hopened, hwaiting, hcomputing]
    rfl
  · intro s0 s1 s2
    refine result ?_
    rw [hstop, State.stopRun]
    simp only [hlatch, hopened, hwaiting, hcomputing]
    have hcount : (s.setLatch false).beginsPeriod = decide (s.activeBank.count = 0) := rfl
    have hs1 : (if (s.setLatch false).beginsPeriod then s.setLatch false else (s.setLatch false).swap .stop) = s1 := by
      simp only [hcount, decide_eq_true_eq, s1, s0]
    have hplant : s1.plant = s.plant := by
      simp only [s1]
      split <;> rfl
    rw [State.stopAtOnce, hs1, State.returnToReady]
    exact congrArg (fun m : PlantBlock => (if m.commitPending then s2.applyMap else s2, Answer.result .done)) hplant

/-- Settles O26: the whole state a reset leaves. -/
theorem accountingResetKeepsWhatTheSpecKeeps : Obligations.AccountingResetKeepsWhatTheSpecKeeps := by
  intro s hacc
  refine ⟨writeTransaction_result_of_owner hacc rfl rfl rfl rfl, fun p => ?_, fun l => ?_⟩
  · rw [SourceTable.allUnset, Tab.get_mapIdx]
    rfl
  · rw [SourceTable.allUnset, Tab.get_mapIdx]
    rfl

/-! ## The interval mark (R52 to R54) -/

/-- The set that is FREE beside the open window is still the one to take once that window's computation has started. -/
theorem State.closeWindow_free_of_idle {s : State} {i j : Fin 2} (hbusy : s.busy = false)
    (hopened : s.ctrl.setWith .opened = some i) (hfree : s.ctrl.setWith .free = some j) :
    (s.closeWindow false i).ctrl.setWith .free = some j := by
  have hi := Controller.status_of_setWith hopened
  have hj := Controller.status_of_setWith hfree
  obtain rfl : j = other i := eq_other fun h => by rw [h, hi] at hj; exact nomatch hj
  obtain ⟨-, hcomputing, hother⟩ := State.closeWindow_status_of_idle hbusy i
  refine Controller.setWith_eq_some (hother.trans hj) ?_
  rw [other_other, hcomputing]
  nofun

/-- Settles O27: an IMARK by the accounting state and the engine. -/
theorem imarkIsAcceptedRefusedOrIgnored : Obligations.ImarkIsAcceptedRefusedOrIgnored := by
  intro pmark s
  refine ⟨fun hrunning => congrArg Host.Outcome.next (if_neg hrunning), fun hrunning hbusy => ?_, fun hrunning hidle => ?_⟩
  · have hbusy' : s.busy = true := Option.isSome_iff_ne_none.mpr hbusy
    have hrefused : exec (.imark pmark) s = .next (s.refuseMark pmark) :=
      congrArg Host.Outcome.next ((if_pos hrunning).trans (if_pos hbusy'))
    rw [hrefused]
    cases pmark <;> rfl
  · have hidle' : ¬ s.busy = true := by rw [State.busy, hidle]; nofun
    have haccepted : exec (.imark pmark) s = .next (s.acceptMark pmark) :=
      congrArg Host.Outcome.next ((if_pos hrunning).trans (if_neg hidle'))
    intro mark opening
    refine ⟨fun j hopened hfree => ?_, fun i j hopened hfree => ?_⟩
    · rw [haccepted, State.acceptMark]
      simp only [hopened, State.openWindow, hfree]
      rfl
    · have hfree' : (s.closeWindow false i).ctrl.setWith .free = some j := by
        exact State.closeWindow_free_of_idle (State.busy_eq_false_iff.mpr (Controller.setWith_eq_none.mp hidle)) hopened hfree
      rw [haccepted, State.acceptMark]
      simp only [hopened, State.openWindow, hfree']
      rfl

/-! ## The link error counters' command (R44, R45) -/

/-- No mask covers a link whose flags are clear (R38). -/
@[simp] theorem covered_clear (mask : PerKind Bool) : covered (.const false) mask = false := by
  simp [covered, PerKind.const]

/-- A link cleared leaves quarantine, so no delivery is dropped (R42, R45). -/
theorem State.clearLink_eq (s : State) (l : Fin 8) : s.clearLink l =
    s.putLink l { s.links.get l with
      counts := .const 0, flags := .const false, quarantined := false
      rx := { (s.links.get l).rx with taken := 0, discarded := 0, armed := false } } := by
  simp only [State.clearLink, State.rederive, State.putLink, Tab.get_set_self, Tab.set_set, covered_clear, Bool.false_and,
    Bool.false_eq_true, if_false]

theorem selectedLinks_of_le {sel : Nat} {l : Fin 8} (h : sel = l.val) : selectedLinks sel = some [l] := by
  subst h
  rw [selectedLinks, if_neg (by omega), toIdx_val]
  rfl

theorem selectedLinks_of_lt {sel : Nat} (h : 7 < sel) (hall : sel ≠ 255) : selectedLinks sel = none := by
  rw [selectedLinks, if_neg hall, toIdx_of_le (Nat.succ_le_of_lt h)]
  rfl

/-- Settles O34: the links a selector names, each cleared and closure judged. -/
theorem clearLinkCountersFreesTheLink : Obligations.ClearLinkCountersFreesTheLink := by
  intro sel s hacc sent cleared
  have hcleared (l : Fin 8) (s : State) : s.clearOne l = cleared l s := by
    rw [State.clearOne, State.clearLink_eq]
    rfl
  refine ⟨fun l hl => ?_, fun hall => ?_, fun hsel hall => ?_⟩
  · rw [← hcleared]
    refine writeTransaction_result_of_owner hacc rfl rfl rfl ?_
    simp only [clearLinkCountersAt, natAt_cons_zero, selectedLinks_of_le hl]
    rfl
  · subst hall
    simp only [← hcleared]
    exact writeTransaction_result_of_owner hacc rfl rfl rfl rfl
  · refine writeTransaction_range_of_owner hacc rfl rfl rfl ?_
    have hne : sel.toNat ≠ 255 := fun h => hall (BitVec.eq_of_toNat_eq h)
    simp only [clearLinkCountersAt, natAt_cons_zero, selectedLinks_of_lt hsel hne, tableLink]

/-! ## The store's commands (R180 to R182) -/

/-- Settles O35: the three commands by their order of checks. -/
theorem storeCommandsAreJudgedInOrder : Obligations.StoreCommandsAreJudgedInOrder := by
  intro v wpN s hacc st
  have protectOwner : setStoreProtectAt wpN [v] s =
      if s.store.busy then (s, .result .refusedBusy)
      else if 3 < v.toNat then (s, .range ⟨0, v.toNat, 1⟩)
      else if s.store.freeze && !wpN then (s, .result .refusedProtected)
      else (s.setStore { s.store with lock := v.getLsbD 0, freeze := v.getLsbD 1 }, .result .done) := rfl
  refine ⟨fun hbusy => ⟨?_, ?_, ?_⟩, fun hidle => ?_⟩
  · exact writeTransaction_result_of_owner hacc rfl rfl rfl (if_pos hbusy)
  · exact writeTransaction_result_of_owner hacc rfl rfl rfl (if_pos hbusy)
  · exact writeTransaction_result_of_owner hacc rfl rfl rfl (if_pos hbusy)
  · have hidle' : ¬ s.store.busy = true := Bool.eq_false_iff.mp hidle
    rw [if_neg hidle'] at protectOwner
    refine ⟨fun hlock => ?_, fun hlock => ?_, fun hpending => ?_, fun hpending => ?_, fun hv => ?_, fun hv hfreeze hwp => ?_,
      fun hv hopen => ?_⟩
    · exact writeTransaction_result_of_owner hacc rfl rfl rfl ((if_neg hidle').trans (if_pos hlock))
    · exact writeTransaction_result_of_owner hacc rfl rfl rfl ((if_neg hidle').trans (if_neg (Bool.eq_false_iff.mp hlock)))
    · exact writeTransaction_result_of_owner hacc rfl rfl rfl ((if_neg hidle').trans (if_pos hpending))
    · exact writeTransaction_result_of_owner hacc rfl rfl rfl
        ((if_neg hidle').trans (if_neg (Bool.eq_false_iff.mp hpending)))
    · exact writeTransaction_range_of_owner hacc rfl rfl rfl (protectOwner.trans (if_pos hv))
    · refine writeTransaction_result_of_owner hacc rfl rfl rfl
        (protectOwner.trans ((if_neg (Nat.not_lt.mpr hv)).trans (if_pos ?_)))
      simp [show s.store.freeze = true from hfreeze, hwp]
    · have hprotected : ¬ (s.store.freeze && !wpN) = true := by
        obtain hfreeze | hwp := hopen
        · simp [show s.store.freeze = false from hfreeze]
        · simp [hwp]
      have hbits : v.getLsbD 0 = decide (v.toNat % 2 = 1) ∧ v.getLsbD 1 = decide (2 ≤ v.toNat) := by
        constructor
        · simp [BitVec.getLsbD, Nat.testBit_zero]
        · simp only [BitVec.getLsbD, Nat.testBit_succ, Nat.testBit_zero, decide_eq_decide]
          omega
      rw [if_neg (Nat.not_lt.mpr hv), if_neg hprotected, hbits.1, hbits.2] at protectOwner
      exact writeTransaction_result_of_owner hacc rfl rfl rfl protectOwner

end Sys2Proof.Machine
end

section
/-! PROOFS. The queue's front command, the laws at reset, the pin reset, events not due, the swap, words on links and the
reconciliation stage (O1, O30, O31, O38, O39, O40, O53, O55). -/

namespace Sys2Proof.Machine

/-- Settles O1. -/
theorem stepRunsTheFrontCommand : Obligations.StepRunsTheFrontCommand :=
  ⟨fun _ _ _ => rfl, fun s hempty => by simp only [step, hempty]⟩

/-! ## Reset and pin reset (R19, R50, R176) -/

theorem State.reset_get_link (l : Fin 8) : State.reset.links.get l = .reset := Tab.get_const ..

theorem State.quarantineLaw_reset : State.reset.quarantineLaw := by
  refine ⟨fun l => ?_, fun _ => ⟨rfl, fun l => ?_⟩⟩
  · rw [State.reset_get_link]; rfl
  · rw [State.reset_get_link]; rfl

theorem slotLawIn_reset : SlotLawIn false State.reset := .all_free nofun

theorem State.balanceLaw_reset : State.reset.balanceLaw := by
  have hbooks := State.booksBalance_empty (s := State.reset) rfl rfl fun f => congrArg Furnace.queue (Tab.get_const ..)
  exact (State.balanceLaw_iff slotLawIn_reset.spanHasWorking).mpr ⟨hbooks.2.1, hbooks.2.2⟩

/-- Settles O55: the law of each block at reset. -/
theorem resetSatisfiesEveryLaw : Obligations.ResetSatisfiesEveryLaw := by
  obtain ⟨hmemory, hport, hqueue, hrange⟩ := State.bounded_iff.mp State.bounded_reset
  exact ⟨hmemory, hport, State.bankLaw_afterReset rfl, State.quarantineLaw_reset, hqueue, hrange,
    slotLaw_iff.mpr slotLawIn_reset, State.balanceLaw_reset⟩

/-- Settles O38: each table of the state after a pin reset is constant. -/
theorem pinResetLeavesThePinResetValues : Obligations.PinResetLeavesThePinResetValues := by
  intro s
  refine ⟨_, rfl, rfl, rfl, rfl, rfl, fun i => ?_, fun l => Tab.get_const .., rfl, fun l => ?_, fun l => ?_,
    fun p => ⟨Tab.get_const .., Tab.get_const ..⟩, fun l => Tab.get_const .., fun f => ?_, rfl, rfl, rfl, rfl, fun p => ?_,
    rfl, rfl, rfl, rfl, rfl, rfl, rfl⟩
  · exact congrArg SlotSet.status (Tab.get_const ..)
  · exact congrArg LinkEntry.mode (Tab.get_const ..)
  · have hlink : State.reset.links.get l = .reset := State.reset_get_link l
    dsimp only
    rw [hlink]
    exact ⟨rfl, rfl, rfl, rfl⟩
  · have hfurnace : State.reset.furnaces.get f = .reset := Tab.get_const ..
    dsimp only
    rw [hfurnace]
    exact ⟨rfl, rfl, rfl⟩
  · cases p <;> exact ⟨rfl, rfl, rfl, rfl, rfl, rfl⟩

/-! ## Events that are not due (log entry 8) -/

/-- A stage that is not due answers the same state. -/
theorem State.atStage_of_not_due {s : State} {before : Phase} (run : Fin 2 → State → State)
    (h : s.ctrl.setWith .computing = none ∨ s.engine.phase ≠ before) : s.atStage before run = s := by
  unfold State.atStage
  cases hset : s.ctrl.setWith .computing with
  | none => rfl
  | some i =>
    have hphase : s.engine.phase ≠ before := h.resolve_left (by simp [hset])
    exact if_neg hphase

/-- A stage that is due runs on the COMPUTING set. -/
theorem State.atStage_of_due {s : State} {before : Phase} (run : Fin 2 → State → State) {i : Fin 2}
    (hset : s.ctrl.setWith .computing = some i) (hphase : s.engine.phase = before) : s.atStage before run = run i s := by
  simp only [State.atStage, hset, if_pos hphase]

theorem execCompletion_of_not_due {s : State}
    (h : s.ctrl.setWith .computing = none ∨ (s.engine.phase ≠ .totalled ∧ s.engine.phase ≠ .banked)) :
    execCompletion s = .next s := by
  unfold execCompletion
  split
  · next hbanked => rw [State.atStage_of_not_due _ (h.imp_right fun h => absurd hbanked h.2)]
  · rw [State.atStage_of_not_due _ (h.imp_right (·.1))]

theorem Store.writeByte_of_ne_save {st : Store} (h : ∀ m lags k, st.op ≠ .save m lags k) : st.writeByte = st := by
  unfold Store.writeByte
  split
  · next hop => exact absurd hop (h _ _ _)
  · rfl
  · rfl

theorem Store.writeByte_of_save {st : Store} {m : PlantMap} {lags : Tab 4 Nat} {k : Nat} (hop : st.op = .save m lags k)
    (hk : k < 4096) :
    st.writeByte =
      { st with image := Image.write k ((imageBytes m lags).getD k 0) st.image, op := .save m lags (k + 1) } := by
  rw [Store.writeByte, hop]
  exact if_pos hk

theorem Store.writeByte_of_written {st : Store} {m : PlantMap} {lags : Tab 4 Nat} {k : Nat} (hop : st.op = .save m lags k)
    (hk : 4096 ≤ k) : st.writeByte = st := by
  rw [Store.writeByte, hop]
  exact if_neg (Nat.not_lt.mpr hk)

theorem Store.saveWritten_iff {st : Store} :
    st.saveWritten = true ↔ ∃ m lags k, st.op = .save m lags k ∧ 4096 ≤ k := by
  unfold Store.saveWritten
  cases st.op with
  | none | load => simp
  | save m lags k =>
    have hwritten : decide (Config.imageSize ≤ k) = true ↔ 4096 ≤ k := decide_eq_true_iff
    simpa using hwritten

theorem execSaveComplete_of_not_written {s : State} (h : s.store.saveWritten = false) : execSaveComplete s = .next s := by
  rw [execSaveComplete, h]; rfl

/-- Settles O39: each event's own condition. -/
theorem eventsNotDueChangeNothing : Obligations.EventsNotDueChangeNothing := by
  intro s
  refine ⟨fun x hx h => ?_, execCompletion_of_not_due, fun hacc => ?_, fun hop => ?_, fun hop => ⟨?_, ?_⟩,
    fun m lags k hop hk => ?_, fun m lags k hop hk => ?_⟩
  · simp only [List.mem_cons, List.not_mem_nil, or_false] at hx
    obtain rfl | rfl | rfl | rfl | rfl | rfl := hx <;>
      exact congrArg Host.Outcome.next (State.atStage_of_not_due _ h)
  · exact congrArg Host.Outcome.next (if_neg hacc)
  · exact congrArg Host.Outcome.next (if_neg hop)
  · exact congrArg (fun st => Host.Outcome.next (s.setStore st)) (Store.writeByte_of_ne_save hop)
  · refine execSaveComplete_of_not_written (Bool.eq_false_iff.mpr fun h => ?_)
    obtain ⟨m, lags, k, hsave, -⟩ := Store.saveWritten_iff.mp h
    exact hop m lags k hsave
  · exact congrArg (fun st => Host.Outcome.next (s.setStore st)) (Store.writeByte_of_written hop hk)
  · refine execSaveComplete_of_not_written (Bool.eq_false_iff.mpr fun h => ?_)
    obtain ⟨m', lags', k', hsave, hk'⟩ := Store.saveWritten_iff.mp h
    rw [hop] at hsave
    cases hsave
    omega

/-! ## Notices (R172) -/

theorem noticeBit_lt (n : Notice) : noticeBit n < 16 := by cases n <;> decide

theorem PortUnit.has_notify_self (u : PortUnit) (n : Notice) : (u.notify n).has n = true := by
  simp [PortUnit.has, PortUnit.notify, noticeMask, noticeBit_lt]

theorem PortUnit.has_notify_of_has {u : PortUnit} {m : Notice} (n : Notice) (h : u.has m = true) :
    (u.notify n).has m = true := by
  unfold PortUnit.has at h
  simp [PortUnit.has, PortUnit.notify, h]

theorem Ports.has_notify_self (p : Ports) (n : Notice) (w : Port) : ((p.notify n).get w).has n = true := by
  rw [Ports.notify_get, PortUnit.has_notify_self]

/-! ## The swap (R153) -/

theorem State.activeIdx_swap (s : State) (c : CloseCause) : (s.swap c).activeIdx = other s.activeIdx := by
  refine State.activeIdx_eq ?_ ?_
  · rw [State.swap_banks_get_other]; rfl
  · rw [other_other, State.swap_banks_get_active]; nofun

theorem State.frozenIdx_swap (s : State) (c : CloseCause) : (s.swap c).frozenIdx = some s.activeIdx := by
  have hactive := s.swap_banks_get_active c
  have hother := s.swap_banks_get_other c
  have hfrozen : ((s.swap c).banks.get s.activeIdx).state = .frozen := by rw [hactive]; rfl
  have hfresh : ((s.swap c).banks.get (other s.activeIdx)).state = .active := by rw [hother]; rfl
  revert hfrozen hfresh
  generalize s.activeIdx = a
  match a with
  | 0 => intro hfrozen _; simp [State.frozenIdx, indices, List.finRange_succ, hfrozen]
  | 1 =>
    intro hfrozen (hfresh : ((s.swap c).banks.get 0).state = .active)
    simp [State.frozenIdx, indices, List.finRange_succ, hfrozen, hfresh]

/-- Settles O53: the two banks after a swap. -/
theorem swapFreezesAndClears : Obligations.SwapFreezesAndClears := by
  intro s cause a b content frozen fresh
  have hcontent : s.inProcess.get = content := funext fun f => Tab.get_mapIdx ..
  have hfrozen : s.activeBank.freeze cause s.inProcess = frozen := by rw [Bank.freeze, hcontent]
  have hfresh : Bank.fresh (s.activeBank.period + 1) s.inProcess = fresh := by rw [Bank.fresh, hcontent]
  refine ⟨_, rfl, (s.swap_banks_get_active cause).trans hfrozen, (s.swap_banks_get_other cause).trans hfresh,
    s.activeIdx_swap cause, s.frozenIdx_swap cause, fun p => ?_⟩
  exact Ports.has_notify_self s.ports .periodClosed p

/-! ## Words on a link (R21, R34) -/

section Words
variable {l : Fin 8} {w : LinkWord} {s : State}

/-- The receiver's part of a word's arrival: its new state and its error events, counted in order. -/
def State.wordReceived (l : Fin 8) (w : LinkWord) (s : State) : State :=
  let x := receiveWord (s.plant.active.links.get l) w (s.links.get l).rx
  x.events.foldl (fun s e => s.errorEvent l e) (s.putLink l { s.links.get l with rx := x.rx })

theorem State.wordArrives_of_no_frame
    (h : (receiveWord (s.plant.active.links.get l) w (s.links.get l).rx).frame = none) :
    s.wordArrives l w = s.wordReceived l w := by
  unfold State.wordArrives
  dsimp only
  rw [h]
  rfl

theorem State.wordArrives_of_quarantined {d : Delivery}
    (h : (receiveWord (s.plant.active.links.get l) w (s.links.get l).rx).frame = some d)
    (hquarantined : ((s.wordReceived l w).links.get l).quarantined = true) :
    s.wordArrives l w = s.wordReceived l w := by
  unfold State.wordArrives
  dsimp only
  rw [h]
  exact if_pos hquarantined

theorem State.wordArrives_of_frame {d : Delivery}
    (h : (receiveWord (s.plant.active.links.get l) w (s.links.get l).rx).frame = some d)
    (hquarantined : ((s.wordReceived l w).links.get l).quarantined = false) :
    s.wordArrives l w = (s.wordReceived l w).deliver l d := by
  unfold State.wordArrives
  dsimp only
  rw [h]
  exact if_neg (Bool.eq_false_iff.mp hquarantined)

end Words

/-- Settles O30: the mode, then what the receiver hands on. -/
theorem linkWordReachesALiveReceiver : Obligations.LinkWordReachesALiveReceiver := by
  intro l w s
  refine ⟨fun hmode => congrArg Host.Outcome.next (if_neg hmode), fun hlive => ?_⟩
  have hexec : exec (.linkWord l w) s = .next ((s.wordArrives l w).judgeClosure false) :=
    congrArg Host.Outcome.next (if_pos hlive)
  intro k x s1
  refine ⟨fun hnone => ?_, fun d hd => ⟨fun hquarantined => ?_, fun hquarantined => ?_⟩⟩
  · rw [hexec, State.wordArrives_of_no_frame hnone]; rfl
  · rw [hexec, State.wordArrives_of_quarantined hd hquarantined]; rfl
  · rw [hexec, State.wordArrives_of_frame hd hquarantined]; rfl

/-! ## Closure (R55 to R58) -/

section Closure
variable {s : State} {i : Fin 2}

/-- Every expected link and line has delivered to the window of set `i` (R57). -/
def State.AllDelivered (s : State) (i : Fin 2) : Prop :=
  (∀ l, (s.plant.active.links.get l).mode ≠ .off → (s.links.get l).quarantined = false →
    (s.ctrl.sets.get i).links.get l ≠ none) ∧
  ∀ l, (s.plant.active.lines.get l).enabled = true → s.ctrl.lineStates.get l ≠ .off →
    (s.ctrl.sets.get i).lines.get l ≠ none

theorem State.allIn_iff : s.allIn (s.ctrl.sets.get i) = true ↔ s.AllDelivered i := by
  simp only [State.allIn, State.linkExpected, State.lineExpected, Bool.and_eq_true, allIdx_iff, Bool.or_eq_true,
    Bool.not_eq_true', Bool.and_eq_false_iff, bne_eq_false_iff_eq, Option.isSome_iff_ne_none, Bool.not_eq_false',
    State.AllDelivered]
  refine and_congr (forall_congr' fun l => ?_) (forall_congr' fun l => ?_)
  · rw [or_iff_not_imp_left, not_or, and_imp, Bool.not_eq_true]
  · rw [or_iff_not_imp_left, not_or, and_imp, Bool.not_eq_false]

theorem State.commitDue_iff : s.commitDue = true ↔
    s.plant.commitPending = true ∧ (s.plant.active.global.commitAtPeriod = false ∨ s.activeBank.count = 0) := by
  simp [State.commitDue, State.beginsPeriod]

theorem State.judgeClosure_of_none (hold : Bool) (h : s.ctrl.setWith .opened = none) : s.judgeClosure hold = s := by
  simp only [State.judgeClosure, h]

theorem State.judgeClosure_of_not_all (hold : Bool) (h : s.ctrl.setWith .opened = some i) (hall : ¬ s.AllDelivered i) :
    s.judgeClosure hold = s := by
  simp only [State.judgeClosure, h]
  exact if_neg (State.allIn_iff.not.mpr hall)

theorem State.judgeClosure_of_all (hold : Bool) (h : s.ctrl.setWith .opened = some i) (hall : s.AllDelivered i) :
    s.judgeClosure hold = s.closeWindow hold i := by
  simp only [State.judgeClosure, h]
  exact if_pos (State.allIn_iff.mpr hall)

/-- A window that closes with the engine busy, or held in a run of injected words, waits (R55, log entry 14). -/
theorem State.closeWindow_waits {hold : Bool} (h : s.busy = true ∨ (hold = true ∧ s.commitDue = true)) :
    s.closeWindow hold i = { s with ctrl := { s.ctrl with
      lastClosed := (s.ctrl.sets.get i).interval
      sets := s.ctrl.sets.set i { s.ctrl.sets.get i with status := .waiting } } } :=
  if_pos (by simpa using h)

theorem State.closeWindow_starts {hold : Bool} (hidle : s.busy = false) (h : hold = false ∨ s.commitDue = false) :
    s.closeWindow hold i =
      State.startComputation i { s with ctrl := { s.ctrl with lastClosed := (s.ctrl.sets.get i).interval } } :=
  if_neg (by simpa [hidle, or_iff_not_imp_left] using h)

theorem State.busy_of_setWith_none (h : s.ctrl.setWith .computing = none) : s.busy = false := by
  rw [State.busy, h]; rfl

theorem State.busy_of_setWith_ne_none (h : s.ctrl.setWith .computing ≠ none) : s.busy = true :=
  Option.isSome_iff_ne_none.mpr h

/-- The status the set had, and the last closed number, do not enter the computation that starts. -/
theorem State.startComputation_status_irrelevant (s : State) (i : Fin 2) (st : SetStatus) :
    State.startComputation i { s with ctrl := { s.ctrl with
      sets := s.ctrl.sets.set i { s.ctrl.sets.get i with status := st } } } = s.startComputation i := by
  have hbegin : State.beginComputation i { s with ctrl := { s.ctrl with
      sets := s.ctrl.sets.set i { s.ctrl.sets.get i with status := st } } } = s.beginComputation i := by
    simp only [State.beginComputation, State.putSet, Tab.get_set_self, Tab.set_set]
  rw [State.startComputation_eq, State.startComputation_eq, hbegin]
  rfl

end Closure

/-! ## A run of injected words (R34, log entry 14) -/

section Injected
variable {s : State}

/-- No word opens or closes a window by itself: the sets' statuses stand until closure is judged. -/
theorem State.deliver_status (s : State) (l : Fin 8) (d : Delivery) (i : Fin 2) :
    ((s.deliver l d).ctrl.sets.get i).status = (s.ctrl.sets.get i).status := by
  unfold State.deliver
  split
  · split
    · rw [State.putSet_ctrl, Tab.get_set]
      split
      · subst_vars; rfl
      · rfl
    · exact (s.errorEvent_drops l .timing).status i
    · exact (s.errorEvent_drops l .timing).status i
  · rfl

theorem State.wordReceived_status (s : State) (l : Fin 8) (w : LinkWord) (i : Fin 2) :
    ((s.wordReceived l w).ctrl.sets.get i).status = (s.ctrl.sets.get i).status :=
  foldl_preserves (P := fun t : State => (t.ctrl.sets.get i).status = (s.ctrl.sets.get i).status)
    (fun t e ht => ((t.errorEvent_drops l e).status i).trans ht) _ rfl

theorem State.wordArrives_status (s : State) (l : Fin 8) (w : LinkWord) (i : Fin 2) :
    ((s.wordArrives l w).ctrl.sets.get i).status = (s.ctrl.sets.get i).status := by
  have hreceived := s.wordReceived_status l w i
  cases hframe : (receiveWord (s.plant.active.links.get l) w (s.links.get l).rx).frame with
  | none => rw [State.wordArrives_of_no_frame hframe, hreceived]
  | some d =>
    cases hquarantined : ((s.wordReceived l w).links.get l).quarantined with
    | true => rw [State.wordArrives_of_quarantined hframe hquarantined, hreceived]
    | false => rw [State.wordArrives_of_frame hframe hquarantined, State.deliver_status, hreceived]

theorem State.wordArrives_setWith (s : State) (l : Fin 8) (w : LinkWord) (st : SetStatus) :
    (s.wordArrives l w).ctrl.setWith st = s.ctrl.setWith st :=
  Controller.setWith_congr (s.wordArrives_status l w) st

/-- With no window OPEN an injected word is a word that arrives. -/
theorem State.injectWord_of_none_opened (h : s.ctrl.setWith .opened = none) (l : Fin 8) (w : LinkWord) :
    s.injectWord l w = s.wordArrives l w :=
  State.judgeClosure_of_none true ((s.wordArrives_setWith l w .opened).trans h)

theorem State.startWaiting_of_none (h : s.ctrl.setWith .waiting = none) : s.startWaiting = s := by
  simp only [State.startWaiting, h]

theorem State.startWaiting_of_busy (h : s.busy = true) : s.startWaiting = s := by
  unfold State.startWaiting
  split
  · exact if_pos h
  · rfl

theorem State.startWaiting_starts {i : Fin 2} (h : s.ctrl.setWith .waiting = some i) (hidle : s.busy = false) :
    s.startWaiting = s.startComputation i := by
  simp only [State.startWaiting, h]
  exact if_neg (Bool.eq_false_iff.mp hidle)

/-- With no window OPEN or WAITING a run is its words arriving one after another. -/
theorem State.injectRun_of_no_window (l : Fin 8) (ws : List LinkWord) {s : State} (hopened : s.ctrl.setWith .opened = none)
    (hwaiting : s.ctrl.setWith .waiting = none) :
    s.injectRun l ws = ws.foldl (fun s w => s.wordArrives l w) s := by
  induction ws generalizing s with
  | nil => exact State.startWaiting_of_none hwaiting
  | cons w ws ih =>
    have hrest := ih ((s.wordArrives_setWith l w .opened).trans hopened) ((s.wordArrives_setWith l w .waiting).trans hwaiting)
    rw [State.injectRun, List.foldl_cons, State.injectWord_of_none_opened hopened]
    exact hrest

/-- The state after the first `k` words of a run. -/
def State.injectedSoFar (l : Fin 8) (ws : List LinkWord) (s : State) (k : Nat) : State :=
  (ws.take k).foldl (fun s w => s.injectWord l w) s

theorem State.injectedSoFar_succ {l : Fin 8} {ws : List LinkWord} {k : Nat} {w : LinkWord} (hw : ws[k]? = some w) :
    s.injectedSoFar l ws (k + 1) = (s.injectedSoFar l ws k).injectWord l w := by
  rw [State.injectedSoFar, List.take_add_one, hw, List.foldl_append]
  rfl

theorem State.startWaiting_injectedSoFar (l : Fin 8) (ws : List LinkWord) (s : State) :
    (s.injectedSoFar l ws ws.length).startWaiting = s.injectRun l ws := by
  rw [State.injectedSoFar, List.take_length]
  rfl

/-- A closure that a run of injected words holds back: it would start a computation that applies a pending commit. -/
def State.Held (s : State) (i : Fin 2) : Prop :=
  s.ctrl.setWith .opened = some i ∧ s.AllDelivered i ∧ s.ctrl.setWith .computing = none ∧ s.commitDue = true

theorem State.judgeClosure_of_held {i : Fin 2} (h : s.Held i) : s.judgeClosure true = { s with ctrl := { s.ctrl with
      lastClosed := (s.ctrl.sets.get i).interval
      sets := s.ctrl.sets.set i { s.ctrl.sets.get i with status := .waiting } } } := by
  obtain ⟨hopened, hall, -, hdue⟩ := h
  rw [State.judgeClosure_of_all true hopened hall, State.closeWindow_waits (.inr ⟨rfl, hdue⟩)]

/-- Any other closure is judged in a run as outside it. -/
theorem State.judgeClosure_of_not_held (h : ∀ i, ¬ s.Held i) : s.judgeClosure true = s.judgeClosure false := by
  cases hopened : s.ctrl.setWith .opened with
  | none => rw [State.judgeClosure_of_none true hopened, State.judgeClosure_of_none false hopened]
  | some i =>
    by_cases hall : s.AllDelivered i
    · rw [State.judgeClosure_of_all true hopened hall, State.judgeClosure_of_all false hopened hall]
      cases hbusy : s.busy with
      | true => rw [State.closeWindow_waits (.inl hbusy), State.closeWindow_waits (.inl hbusy)]
      | false =>
        have hnone := Controller.setWith_eq_none.mpr (State.busy_eq_false_iff.mp hbusy)
        have hdue : s.commitDue = false := Bool.eq_false_iff.mpr fun hdue => h i ⟨hopened, hall, hnone, hdue⟩
        rw [State.closeWindow_starts hbusy (.inr hdue), State.closeWindow_starts hbusy (.inl rfl)]
    · rw [State.judgeClosure_of_not_all true hopened hall, State.judgeClosure_of_not_all false hopened hall]

/-! ### The command -/

theorem injectedWords_flatMap (words : List (Byte × Byte × Byte)) :
    injectedWords (words.flatMap fun w => [w.1, w.2.1, w.2.2]) =
      words.map fun w => ⟨w.2.1 ++ w.2.2, w.1.getLsbD 2, w.1.getLsbD 1, w.1.getLsbD 0, true⟩ := by
  induction words with
  | nil => rfl
  | cons w words ih =>
    rw [List.flatMap_cons, List.map_cons, ← ih]
    rfl

theorem length_injectedBytes (words : List (Byte × Byte × Byte)) :
    (words.flatMap fun w => [w.1, w.2.1, w.2.2]).length = 3 * words.length := by
  simp [List.length_flatMap, Nat.mul_comm]

theorem lengthSuits_injectWords {words : List (Byte × Byte × Byte)} (hleast : 1 ≤ words.length) (hmost : words.length ≤ 32)
    (link : Byte) :
    lengthSuits .injectWords (1 + (link :: words.flatMap fun w => [w.1, w.2.1, w.2.2]).length) = true := by
  simp only [lengthSuits, List.length_cons, length_injectedBytes, decide_eq_true_eq]
  omega

variable {link : Byte} {bytes : List Byte} {l : Fin 8}

theorem injectWordsAt_of_link (h : 7 < link.toNat) :
    injectWordsAt (link :: bytes) s = (s, .range ⟨1, link.toNat, 0⟩) := by
  simp only [injectWordsAt, natAt_cons_zero, toIdx_of_le (Nat.succ_le_of_lt h), tableLink]

theorem injectWordsAt_of_mode (hl : link.toNat = l.val) (h : (s.plant.active.links.get l).mode ≠ .test) :
    injectWordsAt (link :: bytes) s = (s, .result .refusedState) := by
  simp only [injectWordsAt, natAt_cons_zero, hl, toIdx_val]
  exact if_neg h

theorem injectWordsAt_of_test (hl : link.toNat = l.val) (h : (s.plant.active.links.get l).mode = .test) :
    injectWordsAt (link :: bytes) s = (s.injectRun l (injectedWords bytes), .result .done) := by
  simp only [injectWordsAt, natAt_cons_zero, hl, toIdx_val]
  exact if_pos h

end Injected

/-- Settles O31: the refusals, then the run word by word. -/
theorem injectWordsFeedsATestLink : Obligations.InjectWordsFeedsATestLink := by
  refine ⟨fun link words s hacc hleast hmost => ?_, fun l ws s => State.injectRun_of_no_window l ws, ?_⟩
  · intro bytes t sent
    have hsent : s.writeSent .e (link :: bytes).length = sent := by simp [sent, Nat.add_comm]
    have hsuits := lengthSuits_injectWords hleast hmost link
    refine ⟨fun hlink => ?_, fun l hl => ⟨fun hmode => ?_, fun hmode => ?_⟩⟩
    · exact (writeTransaction_range_of_owner hacc rfl rfl hsuits (injectWordsAt_of_link hlink)).trans (by rw [hsent])
    · exact (writeTransaction_result_of_owner hacc rfl rfl hsuits (injectWordsAt_of_mode hl hmode)).trans (by rw [hsent])
    · rw [← injectedWords_flatMap]
      exact (writeTransaction_result_of_owner hacc rfl rfl hsuits (injectWordsAt_of_test hl hmode)).trans (by rw [hsent])
  · intro allIn held
    have hheld (s : State) (i : Fin 2) : s.Held i ↔ held s i := by rw [State.Held, State.commitDue_iff]; rfl
    refine ⟨fun l ws s => ⟨s.injectedSoFar l ws, rfl, fun k w hw => ?_, ?_⟩,
      fun s i st => ⟨fun hopened hall hidle => ?_, ?_⟩⟩
    · rw [State.injectedSoFar_succ hw]
      exact ⟨fun i h => State.judgeClosure_of_held ((hheld _ i).mpr h),
        fun h => State.judgeClosure_of_not_held fun i hi => h i ((hheld _ i).mp hi)⟩
    · rw [← s.startWaiting_injectedSoFar l ws]
      refine ⟨fun i hwaiting hidle => State.startWaiting_starts hwaiting (State.busy_of_setWith_none hidle), ?_⟩
      exact fun h => h.elim State.startWaiting_of_none fun h => State.startWaiting_of_busy (State.busy_of_setWith_ne_none h)
    · rw [State.judgeClosure_of_all false hopened hall]
      exact State.closeWindow_starts (State.busy_of_setWith_none hidle) (.inl rfl)
    · exact s.startComputation_status_irrelevant i st

/-! ## The reconciliation stage (R70, R71, R86) -/

section Reconciliation
variable {q : Tab 8 Bool} {w : SlotSet} {p : Fin 128}

theorem pointReading_of_quarantined (h : q.get (pointLink p) = true) : pointReading q w p = none := if_pos h

theorem pointReading_of_no_delivery (hq : q.get (pointLink p) = false) (h : w.links.get (pointLink p) = none) :
    pointReading q w p = none := by
  simp only [pointReading, hq, h, Bool.false_eq_true, if_false]

theorem pointReading_of_delivery {d : Delivery} (hq : q.get (pointLink p) = false)
    (h : w.links.get (pointLink p) = some d) :
    pointReading q w p = (d.readings[pointSlot p]?).filter fun r => !r.fault := by
  simp only [pointReading, hq, h, Bool.false_eq_true, if_false]

/-- Some enabled source satisfies a property of its shared part exactly when a point or a line does. -/
theorem anySource_iff {m : PlantMap} {before after : SourceTable} {r : SrcHead → SrcHead → Bool} :
    anySource m before after r = true ↔
      (∃ p, (m.points.get p).enabled = true ∧ r (before.points.get p).head (after.points.get p).head = true) ∨
      ∃ l, (m.lines.get l).enabled = true ∧ r (before.lines.get l).head (after.lines.get l).head = true := by
  simp only [anySource, Bool.or_eq_true, anyIdx_iff, Bool.and_eq_true]

theorem enters_lost_iff (a b : SrcState) : (a != .lost && b == .lost) = true ↔ a ≠ .lost ∧ b = .lost := by
  simp

end Reconciliation

/-- Settles O40: the table's entries, then the header's fields. -/
theorem reconciliationStageTakesEachSourceOnce : Obligations.ReconciliationStageTakesEachSourceOnce := by
  intro s i hset hphase m w reading
  have hreading (p : Fin 128) : pointReading s.engine.quarantined w p = reading p := by
    dsimp only [reading]
    split
    · next hq => exact pointReading_of_quarantined hq
    · next hq =>
      have hq : s.engine.quarantined.get (pointLink p) = false := Bool.eq_false_iff.mpr hq
      split
      · next hnone => exact pointReading_of_no_delivery hq hnone
      · next d hd =>
        rw [pointReading_of_delivery hq hd, pointSlot]
        cases d.readings[p.val % 16]? with
        | none => rfl
        | some r => cases hfault : r.fault <;> simp [hfault]
  refine ⟨s.sources.reconcile m s.engine w,
    ResultHeader.reconciled m s.engine w (findingsOf m s.sources (s.sources.reconcile m s.engine w)),
    congrArg Host.Outcome.next (State.atStage_of_due _ hset hphase), fun p hp => ?_, fun p hp => ?_, fun l hl => ?_,
    fun l hl => ?_, fun x => ⟨rfl, fun l => ?_, fun l => ?_,
      anySource_iff (before := s.sources) (r := fun _ a => a.quality.estimated),
      anySource_iff (before := s.sources) (r := fun _ a => a.quality.implausible), ?_⟩⟩
  · simp only [SourceTable.reconcile, Tab.get_mapIdx, hp, if_true, hreading]
  · simp only [SourceTable.reconcile, Tab.get_mapIdx, hp, Bool.false_eq_true, if_false]
  · simp only [SourceTable.reconcile, Tab.get_mapIdx, hl, if_true]
  · simp only [SourceTable.reconcile, Tab.get_mapIdx, hl, Bool.false_eq_true, if_false]
  · simp [ResultHeader.reconciled, Option.isSome_iff_ne_none]
  · simp [ResultHeader.reconciled, Option.isSome_iff_ne_none]
  · refine (anySource_iff (r := fun b a => b.state != .lost && a.state == .lost)).trans ?_
    simp only [enters_lost_iff]

end Sys2Proof.Machine
end

section
/-! PROOFS. The plant map: entry images and their fields (R2 to R9, 13.5), COMMIT and its four checks (R12, R13) (O21, O22). -/

namespace Sys2Proof.Machine

/-! ## Stretches of a byte sequence -/

section Bytes
variable {b : List Byte} {j k n : Nat}

/-- Two byte sequences of one length that spell one number are equal. -/
theorem beNat_inj {a b : List Byte} (hlen : a.length = b.length) (h : beNat a = beNat b) : a = b := by
  induction a generalizing b with
  | nil => exact (List.length_eq_zero_iff.mp hlen.symm).symm
  | cons x a ih =>
    cases b with
    | nil => cases hlen
    | cons y b =>
      have hlen' : a.length = b.length := Nat.succ.inj hlen
      have ha := beNat_lt a
      have hb := beNat_lt b
      rw [beNat_cons, beNat_cons, hlen'] at h
      rw [hlen'] at ha
      have hpos : 0 < 256 ^ b.length := Nat.pos_of_ne_zero (by positivity)
      have hdiv := congrArg (· / 256 ^ b.length) h
      simp only [Nat.add_comm (_ * _), Nat.add_mul_div_right _ _ hpos, Nat.div_eq_of_lt ha, Nat.div_eq_of_lt hb,
        Nat.zero_add] at hdiv
      rw [BitVec.eq_of_toNat_eq hdiv] at h
      rw [BitVec.eq_of_toNat_eq hdiv, ih hlen' (Nat.add_left_cancel h)]

theorem toBE_beNat (b : List Byte) : toBE b.length (beNat b) = b :=
  beNat_inj (length_toBE ..) ((beNat_toBE ..).trans (Nat.mod_eq_of_lt (beNat_lt b)))

/-- The `n` bytes from offset `k`. -/
def slice (b : List Byte) (k n : Nat) : List Byte := (b.drop k).take n

theorem take_eq_slice (b : List Byte) (n : Nat) : b.take n = slice b 0 n := rfl

theorem slice_succ (h : k < b.length) (n : Nat) : slice b k (n + 1) = byteAt b k :: slice b (k + 1) n := by
  rw [slice, List.drop_eq_getElem_cons h, List.take_succ_cons, byteAt, List.getD_eq_getElem _ _ h]
  rfl

@[simp] theorem slice_zero (b : List Byte) (k : Nat) : slice b k 0 = [] := List.take_zero ..

theorem length_slice (h : k + n ≤ b.length) : (slice b k n).length = n := by
  simp only [slice, List.length_take, List.length_drop]
  omega

/-- A number spelled in its bytes again. -/
theorem toBE_beAt (h : k + n ≤ b.length) : toBE n (beAt b k n) = slice b k n := by
  have hspell := toBE_beNat (slice b k n)
  rwa [length_slice h] at hspell

@[simp] theorem byteOf_natAt (b : List Byte) (k : Nat) : byteOf (natAt b k) = byteAt b k := byteOf_toNat_self _

theorem byteAt_take (h : k < n) (b : List Byte) : byteAt (b.take n) k = byteAt b k := by
  rw [byteAt, byteAt, List.getD_eq_getElem?_getD, List.getD_eq_getElem?_getD, List.getElem?_take_of_lt h]

theorem natAt_take (h : k < n) (b : List Byte) : natAt (b.take n) k = natAt b k := by rw [natAt, byteAt_take h, natAt]

theorem beAt_take (h : k + j ≤ n) (b : List Byte) : beAt (b.take n) k j = beAt b k j := by
  rw [beAt, beAt, List.drop_take, List.take_take, Nat.min_eq_left (by omega)]

theorem beAt_zero (b : List Byte) (k : Nat) : beAt b k 0 = 0 := by simp [beAt, beNat]

theorem beAt_succ (h : k + n < b.length) : beAt b k (n + 1) = beAt b k n * 256 + natAt b (k + n) := by
  have hlast : (b.drop k).take (n + 1) = (b.drop k).take n ++ [byteAt b (k + n)] := by
    rw [List.take_add_one, List.getElem?_drop, List.getElem?_eq_getElem h, byteAt, List.getD_eq_getElem _ _ h]
    rfl
  rw [beAt, hlast, beNat_append_singleton]
  rfl

end Bytes

/-! ## The fields of an image, spelled again (13.5) -/

section Fields
variable {b : List Byte} {k n : Nat}

theorem flagByte_of_flagField {x : Bool} (h : flagField n (natAt b k) = .ok x) : flagByte x = byteAt b k := by
  have hbyte (v : Byte) : flagField n v.toNat = .ok x → flagByte x = v := by
    unfold flagField
    split
    · next hzero => intro h; cases h; exact (BitVec.eq_of_toNat_eq (y := 0) hzero).symm
    · split
      · next hone => intro h; cases h; exact (BitVec.eq_of_toNat_eq (y := 1) hone).symm
      · nofun
  exact hbyte _ h

theorem maskByte_of_maskField {x : PerKind Bool} (h : maskField n (byteAt b k) = .ok x) : maskByte x = byteAt b k := by
  have hbyte : ∀ v : Byte, v.toNat ≤ 15 →
      maskByte ⟨v.getLsbD 0, v.getLsbD 1, v.getLsbD 2, v.getLsbD 3⟩ = v := by decide
  unfold maskField at h
  split at h
  · next hle => cases h; exact hbyte _ hle
  · cases h

theorem linkModeCode_of_code {x : Nat} {m : LinkMode} (h : linkModeOfCode x = some m) : linkModeCode m = x := by
  unfold linkModeOfCode at h
  split at h <;> cases h <;> rfl

theorem carrierCode_of_code {x : Nat} {c : Carrier} (h : carrierOfCode x = some c) : carrierCode c = x := by
  unfold carrierOfCode at h
  split at h <;> cases h <;> rfl

theorem basisCode_of_code {x : Nat} {c : Basis} (h : basisOfCode x = some c) : basisCode c = x := by
  unfold basisOfCode at h
  split at h <;> cases h <;> rfl

theorem targetCodes_of_codes {kind index : Nat} {t : Target} (h : targetOfCodes kind index = some t) :
    targetKindCode t = kind ∧ targetIndex t = index := by
  unfold targetOfCodes at h
  split at h
  · obtain ⟨i, hi, rfl⟩ := Option.map_eq_some_iff.mp h
    exact ⟨rfl, (toIdx_eq_some.mp hi).symm⟩
  · obtain ⟨i, hi, rfl⟩ := Option.map_eq_some_iff.mp h
    exact ⟨rfl, (toIdx_eq_some.mp hi).symm⟩
  · obtain ⟨i, hi, rfl⟩ := Option.map_eq_some_iff.mp h
    exact ⟨rfl, (toIdx_eq_some.mp hi).symm⟩
  · split at h
    · next hzero => cases h; exact ⟨rfl, hzero.symm⟩
    · cases h
  · cases h

theorem curveNumber_of_curveField {x : Nat} {c : Option (Fin 8)} (h : curveField n x = .ok c) : curveNumber c = x := by
  unfold curveField at h
  split at h
  · next hnone => cases h; exact hnone.symm
  · obtain ⟨i, hi, rfl⟩ := Option.map_eq_some_iff.mp (codeField_eq_ok_iff.mp h)
    exact (toIdx_eq_some.mp hi).symm

/-! ### An image that is taken is the entry's image, and padding -/

theorem globalImage_of_image {g : GlobalEntry} (hlen : 7 ≤ b.length) (h : globalOfImage b = .ok g) :
    globalImage g = b.take 7 := by
  simp only [globalOfImage, Except.bind_eq_ok_iff, rangeField_eq_ok_iff, Except.ok.injEq] at h
  obtain ⟨_, ⟨-, rfl⟩, _, ⟨-, rfl⟩, _, hwrap, _, hquarantine, _, hflag, _, ⟨-, rfl⟩, rfl⟩ := h
  simp only [globalImage, byteOf_natAt, maskByte_of_maskField hwrap, maskByte_of_maskField hquarantine,
    flagByte_of_flagField hflag, take_eq_slice]
  rw [toBE_beAt (by omega)]
  simp (disch := omega) only [slice_succ, slice_zero, List.cons_append, List.nil_append]

theorem linkImage_of_image {e : LinkEntry} (hlen : 3 ≤ b.length) (h : linkOfImage b = .ok e) : linkImage e = b.take 3 := by
  simp only [linkOfImage, Except.bind_eq_ok_iff, rangeField_eq_ok_iff, codeField_eq_ok_iff, Except.ok.injEq] at h
  obtain ⟨_, hmode, _, ⟨-, rfl⟩, _, ⟨-, rfl⟩, rfl⟩ := h
  simp only [linkImage, byteOf_natAt, linkModeCode_of_code hmode, take_eq_slice]
  simp (disch := omega) only [slice_succ, slice_zero]

theorem pointImage_of_image {e : PointEntry} (hlen : 12 ≤ b.length) (h : pointOfImage b = .ok e) :
    pointImage e = b.take 12 := by
  simp only [pointOfImage, Except.bind_eq_ok_iff, rangeField_eq_ok_iff, codeField_eq_ok_iff, Except.ok.injEq] at h
  obtain ⟨_, hflag, _, hcarrier, _, ⟨-, rfl⟩, _, htarget, _, hcurve, _, ⟨-, rfl⟩, rfl⟩ := h
  obtain ⟨hkind, hindex⟩ := targetCodes_of_codes htarget
  simp only [pointImage, flagByte_of_flagField hflag, carrierCode_of_code hcarrier, hkind, hindex,
    curveNumber_of_curveField hcurve, byteOf_natAt, take_eq_slice]
  rw [toBE_beAt (by omega), toBE_beAt (by omega)]
  simp (disch := omega) only [slice_succ, slice_zero, List.cons_append, List.nil_append]

theorem furnaceImage_of_image {e : FurnaceEntry} (hlen : 3 ≤ b.length) (h : furnaceOfImage b = .ok e) :
    furnaceImage e = b.take 3 := by
  simp only [furnaceOfImage, Except.bind_eq_ok_iff, rangeField_eq_ok_iff, Except.ok.injEq] at h
  obtain ⟨_, hflag, _, ⟨-, rfl⟩, rfl⟩ := h
  simp only [furnaceImage, flagByte_of_flagField hflag, take_eq_slice]
  rw [toBE_beAt (by omega)]
  simp (disch := omega) only [slice_succ, slice_zero]

theorem lineImage_of_image {e : LineEntry} (hlen : 10 ≤ b.length) (h : lineOfImage b = .ok e) :
    lineImage e = b.take 10 := by
  simp only [lineOfImage, Except.bind_eq_ok_iff, rangeField_eq_ok_iff, codeField_eq_ok_iff, Except.ok.injEq] at h
  obtain ⟨_, hflag, f, hfurnace, _, ⟨-, rfl⟩, _, ⟨-, rfl⟩, rfl⟩ := h
  have hweights : (Tab.ofFn fun p : Fin 4 => natAt b (6 + p.val)).list.map byteOf = slice b 6 4 := by
    simp (disch := omega) only [slice_succ, slice_zero]
    simp [Tab.ofFn]
  simp only [lineImage, flagByte_of_flagField hflag, ← toIdx_eq_some.mp hfurnace, byteOf_natAt, hweights, take_eq_slice]
  rw [toBE_beAt (by omega), toBE_beAt (by omega)]
  simp (disch := omega) only [slice_succ, slice_zero, List.cons_append, List.nil_append]

theorem poolImage_of_image {e : PoolEntry} (hlen : 2 ≤ b.length) (h : poolOfImage b = .ok e) : poolImage e = b.take 2 := by
  simp only [poolOfImage, Except.bind_eq_ok_iff, codeField_eq_ok_iff, Except.ok.injEq] at h
  obtain ⟨_, hflag, _, hbasis, rfl⟩ := h
  simp only [poolImage, flagByte_of_flagField hflag, basisCode_of_code hbasis, byteOf_natAt, take_eq_slice]
  simp (disch := omega) only [slice_succ, slice_zero]

theorem curveImage_of_image (hlen : 32 ≤ b.length) : curveImage (curveOfImage b) = b.take 32 := by
  have hlist : (curveOfImage b).gains.list = (List.finRange 16).map fun s => beAt b (2 * s.val) 2 := rfl
  rw [curveImage, hlist, List.flatMap_map, take_eq_slice]
  have hspell (s : Fin 16) : toBE 2 (beAt b (2 * s.val) 2) = slice b (2 * s.val) 2 := toBE_beAt (by omega)
  simp only [hspell]
  simp (disch := omega) only [slice_succ, slice_zero]
  simp [List.finRange_succ]

end Fields

/-! ## The first field of an image that offends (R9 step 3) -/

section Faults
variable {α β : Type} {b : List Byte} {k n : Nat}

/-- The number of the first offending field, where one offends. -/
def faultOf : Except Nat α → Option Nat
  | .ok _ => none
  | .error k => some k

theorem faultOf_eq_none_iff {x : Except Nat α} : faultOf x = none ↔ ∃ a, x = .ok a := by
  cases x <;> simp [faultOf]

/-- The first number of a list of numbered checks whose check is set. -/
def firstOf (offends : List (Nat × Bool)) : Option Nat := ((offends.filter fun x => x.2).map fun x => x.1).head?

theorem faultOf_bind {x : Except Nat α} {f : α → Except Nat β} {bad : Bool} {rest : List (Nat × Bool)}
    (hx : faultOf x = if bad then some k else none) (hf : ∀ a, x = .ok a → faultOf (f a) = firstOf rest) :
    faultOf (x.bind f) = firstOf ((k, bad) :: rest) := by
  cases bad with
  | true =>
    cases x with
    | ok a => cases hx
    | error e => exact hx
  | false =>
    cases x with
    | ok a => exact hf a rfl
    | error e => cases hx

theorem faultOf_flagField (n x : Nat) : faultOf (flagField n x) = if decide (1 < x) then some n else none := by
  unfold flagField
  split
  · next h => subst h; rfl
  · split
    · next h => subst h; rfl
    · rw [if_pos (by simp; omega)]; rfl

theorem faultOf_rangeField {lo hi x : Nat} {bad : Bool} (hbad : bad = true ↔ ¬ (lo ≤ x ∧ x ≤ hi)) (n : Nat) :
    faultOf (rangeField n lo hi x) = if bad then some n else none := by
  unfold rangeField
  split
  · next h => rw [if_neg (fun hset => hbad.mp hset h)]; rfl
  · next h => rw [if_pos (hbad.mpr h)]; rfl

theorem faultOf_codeField {c : Option α} {bad : Bool} (hbad : bad = true ↔ c = none) (n : Nat) :
    faultOf (codeField n c) = if bad then some n else none := by
  cases c with
  | none => rw [if_pos (hbad.mpr rfl)]; rfl
  | some a => rw [if_neg (fun hset => nomatch hbad.mp hset)]; rfl

theorem faultOf_maskField (n : Nat) (x : Byte) :
    faultOf (maskField n x) = if decide (15 < x.toNat) then some n else none := by
  unfold maskField
  split
  · next h => rw [if_neg (by simp; omega)]; rfl
  · next h => rw [if_pos (by simp; omega)]; rfl

theorem linkModeOfCode_eq_none_iff {x : Nat} : linkModeOfCode x = none ↔ 2 < x := by
  match x with
  | 0 | 1 | 2 => decide
  | x + 3 => exact ⟨fun _ => by omega, fun _ => rfl⟩

theorem carrierOfCode_eq_none_iff {x : Nat} : carrierOfCode x = none ↔ 3 < x := by
  match x with
  | 0 | 1 | 2 | 3 => decide
  | x + 4 => exact ⟨fun _ => by omega, fun _ => rfl⟩

theorem basisOfCode_eq_none_iff {x : Nat} : basisOfCode x = none ↔ 2 < x := by
  match x with
  | 0 | 1 | 2 => decide
  | x + 3 => exact ⟨fun _ => by omega, fun _ => rfl⟩

/-- The highest index of each kind of target (R4). -/
def lastTarget : Nat → Nat
  | 0 => 3
  | 1 => 11
  | 2 => 3
  | _ => 0

theorem targetOfCodes_eq_none_iff {kind index : Nat} (hkind : kind ≤ 3) :
    targetOfCodes kind index = none ↔ lastTarget kind < index := by
  match kind, hkind with
  | 0, _ | 1, _ | 2, _ =>
    simp only [targetOfCodes, Option.map_eq_none_iff, toIdx_eq_none, lastTarget]
    omega
  | 3, _ =>
    simp only [targetOfCodes, lastTarget]
    split <;> simp <;> omega

theorem curveField_fault (n x : Nat) :
    faultOf (curveField n x) = if decide (7 < x ∧ x ≠ 15) then some n else none := by
  unfold curveField
  split
  · next h => subst h; rfl
  · next h =>
    refine faultOf_codeField ?_ n
    simp only [decide_eq_true_eq, Option.map_eq_none_iff, toIdx_eq_none]
    omega

/-- The number of two bytes. -/
def twoAt (b : List Byte) (k : Nat) : Nat := natAt b k * 256 + natAt b (k + 1)

/-- The number of three bytes. -/
def threeAt (b : List Byte) (k : Nat) : Nat := twoAt b k * 256 + natAt b (k + 2)

theorem beAt_two (h : k + 2 ≤ b.length) : beAt b k 2 = twoAt b k := by
  rw [beAt_succ (by omega), beAt_succ (by omega), beAt_zero, Nat.zero_mul, Nat.zero_add]
  rfl

theorem beAt_three (h : k + 3 ≤ b.length) : beAt b k 3 = threeAt b k := by
  rw [beAt_succ (by omega), beAt_two (by omega)]
  rfl

/-- The checks of the fields of an image, in order (R2 to R8). -/
def fieldChecks (table : Nat) (b : List Byte) : List (Nat × Bool) :=
  match table with
  | 0 => [(1, decide (15 < natAt b 0)), (2, decide (natAt b 1 = 0)), (3, decide (15 < natAt b 2)),
      (4, decide (15 < natAt b 3)), (5, decide (1 < natAt b 4)), (6, decide (twoAt b 5 = 0))]
  | 1 => [(1, decide (2 < natAt b 0)), (2, decide (31 < natAt b 1)), (3, decide (natAt b 2 = 0 ∨ 16 < natAt b 2))]
  | 2 => [(1, decide (1 < natAt b 0)), (2, decide (3 < natAt b 1)), (3, decide (3 < natAt b 2)),
      (4, decide (lastTarget (natAt b 2) < natAt b 3)), (6, decide (7 < natAt b 8 ∧ natAt b 8 ≠ 15)),
      (7, decide (threeAt b 9 = 0 ∨ 1048575 < threeAt b 9))]
  | 3 => [(1, decide (1 < natAt b 0)), (2, decide (twoAt b 1 = 0))]
  | 4 => [(1, decide (1 < natAt b 0)), (2, decide (3 < natAt b 1)), (3, decide (twoAt b 2 = 0)), (4, decide (twoAt b 4 = 0))]
  | 5 => [(1, decide (1 < natAt b 0)), (2, decide (2 < natAt b 1))]
  | _ => []

theorem twoAt_le (b : List Byte) (k : Nat) : twoAt b k ≤ 65535 := by
  have hhigh := natAt_le b k
  have hlow := natAt_le b (k + 1)
  unfold twoAt
  omega

/-- A range from 1 to 65,535 is offended by 0 alone. -/
theorem faultOf_rangeField_two (h : k + 2 ≤ b.length) (n : Nat) :
    faultOf (rangeField n 1 65535 (beAt b k 2)) = if decide (twoAt b k = 0) then some n else none := by
  rw [beAt_two h]
  have hle := twoAt_le b k
  exact faultOf_rangeField (by simp only [decide_eq_true_eq]; omega) n

theorem globalOfImage_fault (h : 7 ≤ b.length) : faultOf (globalOfImage b) = firstOf (fieldChecks 0 b) := by
  have hthreshold := natAt_le b 1
  refine faultOf_bind (faultOf_rangeField (by simp) 1) fun _ _ => ?_
  refine faultOf_bind (faultOf_rangeField (by simp only [decide_eq_true_eq]; omega) 2) fun _ _ => ?_
  refine faultOf_bind (faultOf_maskField 3 _) fun _ _ => ?_
  refine faultOf_bind (faultOf_maskField 4 _) fun _ _ => ?_
  refine faultOf_bind (faultOf_flagField 5 _) fun _ _ => ?_
  exact faultOf_bind (faultOf_rangeField_two (by omega) 6) fun _ _ => rfl

theorem linkOfImage_fault (b : List Byte) : faultOf (linkOfImage b) = firstOf (fieldChecks 1 b) := by
  refine faultOf_bind (faultOf_codeField (by simp [linkModeOfCode_eq_none_iff]) 1) fun _ _ => ?_
  refine faultOf_bind (faultOf_rangeField (by simp) 2) fun _ _ => ?_
  exact faultOf_bind (faultOf_rangeField (by simp only [decide_eq_true_eq]; omega) 3) fun _ _ => rfl

theorem pointOfImage_fault (h : 12 ≤ b.length) : faultOf (pointOfImage b) = firstOf (fieldChecks 2 b) := by
  refine faultOf_bind (faultOf_flagField 1 _) fun _ _ => ?_
  refine faultOf_bind (faultOf_codeField (by simp [carrierOfCode_eq_none_iff]) 2) fun _ _ => ?_
  refine faultOf_bind (faultOf_rangeField (by simp) 3) fun kind hkind => ?_
  obtain ⟨⟨-, hle⟩, rfl⟩ := rangeField_eq_ok_iff.mp hkind
  refine faultOf_bind (faultOf_codeField (by simp [targetOfCodes_eq_none_iff hle]) 4) fun _ _ => ?_
  refine faultOf_bind (curveField_fault 6 _) fun _ _ => ?_
  rw [beAt_three (by omega)]
  exact faultOf_bind (faultOf_rangeField (by simp only [decide_eq_true_eq]; omega) 7) fun _ _ => rfl

theorem furnaceOfImage_fault (h : 3 ≤ b.length) : faultOf (furnaceOfImage b) = firstOf (fieldChecks 3 b) := by
  refine faultOf_bind (faultOf_flagField 1 _) fun _ _ => ?_
  exact faultOf_bind (faultOf_rangeField_two (by omega) 2) fun _ _ => rfl

theorem lineOfImage_fault (h : 10 ≤ b.length) : faultOf (lineOfImage b) = firstOf (fieldChecks 4 b) := by
  refine faultOf_bind (faultOf_flagField 1 _) fun _ _ => ?_
  refine faultOf_bind (faultOf_codeField (by simp [toIdx_eq_none, Nat.succ_le_iff]) 2) fun _ _ => ?_
  refine faultOf_bind (faultOf_rangeField_two (by omega) 3) fun _ _ => ?_
  exact faultOf_bind (faultOf_rangeField_two (by omega) 4) fun _ _ => rfl

theorem poolOfImage_fault (b : List Byte) : faultOf (poolOfImage b) = firstOf (fieldChecks 5 b) := by
  refine faultOf_bind (faultOf_flagField 1 _) fun _ _ => ?_
  exact faultOf_bind (faultOf_codeField (by simp [basisOfCode_eq_none_iff]) 2) fun _ _ => rfl

end Faults

/-! ## Writing an entry (R9) -/

section Write
variable {m m' : PlantMap} {table index n k : Nat} {b : List Byte}

/-- The first offending field of an image of a table. -/
def imageFault (table : Nat) (b : List Byte) : Option Nat :=
  match table with
  | 0 => faultOf (globalOfImage b)
  | 1 => faultOf (linkOfImage b)
  | 2 => faultOf (pointOfImage b)
  | 3 => faultOf (furnaceOfImage b)
  | 4 => faultOf (lineOfImage b)
  | 5 => faultOf (poolOfImage b)
  | _ => none

theorem imageFault_eq (hlen : 12 ≤ b.length) (table : Nat) : imageFault table b = firstOf (fieldChecks table b) := by
  match table with
  | 0 => exact globalOfImage_fault (by omega)
  | 1 => exact linkOfImage_fault b
  | 2 => exact pointOfImage_fault hlen
  | 3 => exact furnaceOfImage_fault (by omega)
  | 4 => exact lineOfImage_fault (by omega)
  | 5 => exact poolOfImage_fault b
  | _ + 6 => rfl

theorem map_fieldDetail_of_fault {α β : Type} {x : Except Nat α} (h : faultOf x = some k) (f : α → β) :
    (fieldDetail table index x).map f = .error ⟨table, index, k⟩ := by
  cases x with
  | ok a => cases h
  | error e => cases h; rfl

theorem map_fieldDetail_of_ok {α β : Type} {x : Except Nat α} (h : faultOf x = none) (f : α → β) :
    ∃ y, (fieldDetail table index x).map f = .ok y := by
  cases x with
  | ok a => exact ⟨f a, rfl⟩
  | error e => cases h

theorem map_fieldDetail_eq_ok_iff {α β : Type} {x : Except Nat α} {f : α → β} {y : β} :
    (fieldDetail table index x).map f = .ok y ↔ ∃ a, x = .ok a ∧ f a = y := by
  simp only [Except.map_eq_ok_iff, fieldDetail_eq_ok_iff]

/-- An image with an offending field is refused with the first. -/
theorem writeEntry_of_fault (hn : tableEntries table = some n) (hi : index < n) (hk : imageFault table b = some k) :
    writeEntry m table index b = .error ⟨table, index, k⟩ := by
  have hsel : selectorFault table index = none := (selectorFault_of_entries hn index).trans (if_pos hi)
  simp only [writeEntry, hsel]
  match table with
  | 0 | 1 | 2 | 3 | 4 | 5 => exact map_fieldDetail_of_fault hk _
  | _ + 6 => cases hk

/-- One with none is taken. -/
theorem writeEntry_of_no_fault (hn : tableEntries table = some n) (hi : index < n) (hk : imageFault table b = none) :
    ∃ m', writeEntry m table index b = .ok m' := by
  have hsel : selectorFault table index = none := (selectorFault_of_entries hn index).trans (if_pos hi)
  simp only [writeEntry, hsel]
  match table with
  | 0 | 1 | 2 | 3 | 4 | 5 => exact map_fieldDetail_of_ok hk _
  | _ + 6 => exact ⟨_, rfl⟩

theorem map_get_setAt_self {α β : Type} {t : Tab n α} {x : α} {f : α → β} (h : index < n) :
    ((toIdx n index).map fun j => f ((setAt t index x).get j)) = some (f x) := by
  rw [toIdx_eq_some (i := ⟨index, h⟩) |>.mpr rfl, Option.map_some, get_setAt, if_pos rfl]

theorem map_get_setAt_ne {α β : Type} {t : Tab n α} {x : α} {f : α → β} {i : Nat} (h : i ≠ index) :
    ((toIdx n i).map fun j => f ((setAt t index x).get j)) = (toIdx n i).map fun j => f (t.get j) := by
  refine Option.map_congr fun j hj => ?_
  rw [get_setAt, if_neg fun hindex => h ((toIdx_eq_some.mp hj).trans hindex.symm)]

theorem lt_of_selectorFault (h : selectorFault table index = none) : ∃ n, tableEntries table = some n ∧ index < n := by
  cases hn : tableEntries table with
  | none => rw [selectorFault_of_table hn] at h; cases h
  | some n =>
    rw [selectorFault_of_entries hn] at h
    split at h
    · next hi => exact ⟨n, rfl, hi⟩
    · cases h

/-- The entry written reads back as the field bytes of its image, and every other as before. -/
theorem entryImage_of_writeEntry (hlen : b.length = 32) (h : writeEntry m table index b = .ok m') :
    entryImage m' table index = some (b.take (fieldBytes table)) ∧
      ∀ t i, ¬ (t = table ∧ i = index) → entryImage m' t i = entryImage m t i := by
  unfold writeEntry at h
  split at h
  · cases h
  · next hsel =>
    obtain ⟨n, hn, hi⟩ := lt_of_selectorFault hsel
    match table with
    | 0 =>
      obtain ⟨e, hok, rfl⟩ := map_fieldDetail_eq_ok_iff.mp h
      cases hn
      obtain rfl : index = 0 := Nat.lt_one_iff.mp hi
      refine ⟨congrArg some (globalImage_of_image (by omega) hok), fun t i hne => ?_⟩
      match t with
      | 0 =>
        have hnone : toIdx 1 i = none := toIdx_of_le (Nat.one_le_iff_ne_zero.mpr fun hi => hne ⟨rfl, hi⟩)
        simp only [entryImage, hnone, Option.map_none]
      | 1 | 2 | 3 | 4 | 5 | 6 | _ + 7 => rfl
    | 1 =>
      obtain ⟨e, hok, rfl⟩ := map_fieldDetail_eq_ok_iff.mp h
      cases hn
      refine ⟨(map_get_setAt_self hi).trans (congrArg some (linkImage_of_image (by omega) hok)), fun t i hne => ?_⟩
      match t with
      | 1 => exact map_get_setAt_ne fun hi => hne ⟨rfl, hi⟩
      | 0 | 2 | 3 | 4 | 5 | 6 | _ + 7 => rfl
    | 2 =>
      obtain ⟨e, hok, rfl⟩ := map_fieldDetail_eq_ok_iff.mp h
      cases hn
      refine ⟨(map_get_setAt_self hi).trans (congrArg some (pointImage_of_image (by omega) hok)), fun t i hne => ?_⟩
      match t with
      | 2 => exact map_get_setAt_ne fun hi => hne ⟨rfl, hi⟩
      | 0 | 1 | 3 | 4 | 5 | 6 | _ + 7 => rfl
    | 3 =>
      obtain ⟨e, hok, rfl⟩ := map_fieldDetail_eq_ok_iff.mp h
      cases hn
      refine ⟨(map_get_setAt_self hi).trans (congrArg some (furnaceImage_of_image (by omega) hok)), fun t i hne => ?_⟩
      match t with
      | 3 => exact map_get_setAt_ne fun hi => hne ⟨rfl, hi⟩
      | 0 | 1 | 2 | 4 | 5 | 6 | _ + 7 => rfl
    | 4 =>
      obtain ⟨e, hok, rfl⟩ := map_fieldDetail_eq_ok_iff.mp h
      cases hn
      refine ⟨(map_get_setAt_self hi).trans (congrArg some (lineImage_of_image (by omega) hok)), fun t i hne => ?_⟩
      match t with
      | 4 => exact map_get_setAt_ne fun hi => hne ⟨rfl, hi⟩
      | 0 | 1 | 2 | 3 | 5 | 6 | _ + 7 => rfl
    | 5 =>
      obtain ⟨e, hok, rfl⟩ := map_fieldDetail_eq_ok_iff.mp h
      cases hn
      refine ⟨(map_get_setAt_self hi).trans (congrArg some (poolImage_of_image (by omega) hok)), fun t i hne => ?_⟩
      match t with
      | 5 => exact map_get_setAt_ne fun hi => hne ⟨rfl, hi⟩
      | 0 | 1 | 2 | 3 | 4 | 6 | _ + 7 => rfl
    | 6 =>
      cases h
      cases hn
      refine ⟨(map_get_setAt_self hi).trans (congrArg some (curveImage_of_image (by omega))), fun t i hne => ?_⟩
      match t with
      | 6 => exact map_get_setAt_ne fun hi => hne ⟨rfl, hi⟩
      | 0 | 1 | 2 | 3 | 4 | 5 | _ + 7 => rfl
    | _ + 7 => cases hn

end Write

/-- Settles O21: what is written reads back, and the first check of a field that is set is the refusal's. -/
theorem entryImagesReadBackAsWritten : Obligations.EntryImagesReadBackAsWritten := by
  refine ⟨fun m m' table index image hlen h => ?_, ?_⟩
  · obtain ⟨hread, hframe⟩ := entryImage_of_writeEntry hlen h
    exact ⟨hread, hframe⟩
  · intro m table index n image hlen hn hi one two three offends bad
    have hfirst : imageFault table image = bad.head? := by
      rw [imageFault_eq (by omega)]
      dsimp only [bad, offends]
      match table with
      | 0 | 1 | 2 | 3 | 4 | 5 | _ + 6 => rfl
    refine ⟨fun hbad => writeEntry_of_no_fault hn hi (by rw [hfirst, hbad]; rfl), fun k rest hbad => ?_⟩
    exact writeEntry_of_fault hn hi (by rw [hfirst, hbad]; rfl)

/-! ## The four checks of a map (R12) -/

section Checks
variable {m : PlantMap} {p : Fin 128} {l : Fin 12}

/-- An enabled point that is on no slot of its link (R12 check 1). -/
def OffSlot (m : PlantMap) (p : Fin 128) : Prop :=
  (m.points.get p).enabled = true ∧ (m.links.get ⟨p.val / 16, by omega⟩).pointCount ≤ p.val % 16

/-- An enabled point whose target is not enabled (R12 check 2). -/
def OffTarget (m : PlantMap) (p : Fin 128) : Prop :=
  (m.points.get p).enabled = true ∧ targetEnabled m (m.points.get p).target = false

/-- An enabled line whose furnace is not enabled (R12 check 3). -/
def OffFurnace (m : PlantMap) (l : Fin 12) : Prop :=
  (m.lines.get l).enabled = true ∧ (m.furnaces.get (m.lines.get l).furnace).enabled = false

theorem pointCheck_of_offSlot (h : OffSlot m p) : pointCheck m p = some ⟨2, p.val, 1⟩ := by
  simp [pointCheck, h.1, tablePoint, h.2]

theorem pointCheck_of_offTarget (hslot : ¬ OffSlot m p) (h : OffTarget m p) : pointCheck m p = some ⟨2, p.val, 2⟩ := by
  have hcount : p.val % 16 < (m.links.get ⟨p.val / 16, by omega⟩).pointCount :=
    Nat.lt_of_not_le fun hle => hslot ⟨h.1, hle⟩
  simp [pointCheck, h.1, tablePoint, h.2, hcount]

theorem pointCheck_eq_none_iff : pointCheck m p = none ↔ ¬ OffSlot m p ∧ ¬ OffTarget m p := by
  constructor
  · intro h
    have hslot : ¬ OffSlot m p := fun hoff => by rw [pointCheck_of_offSlot hoff] at h; cases h
    exact ⟨hslot, fun hoff => by rw [pointCheck_of_offTarget hslot hoff] at h; cases h⟩
  · rintro ⟨hslot, htarget⟩
    unfold OffSlot at hslot
    unfold OffTarget at htarget
    cases henabled : (m.points.get p).enabled with
    | false => simp [pointCheck, henabled]
    | true => simp_all [pointCheck]

theorem lineCheck_of_offFurnace (h : OffFurnace m l) : lineCheck m l = some ⟨4, l.val, 3⟩ := by
  simp [lineCheck, h.1, h.2, tableLine]

theorem lineCheck_eq_none_iff : lineCheck m l = none ↔ ¬ OffFurnace m l := by
  simp [lineCheck, OffFurnace]

/-- The scan of a table finds the first index that fails. -/
theorem findSome_indices_eq_some_iff {n : Nat} {α : Type} {f : Fin n → Option α} {a : α} :
    (indices n).findSome? f = some a ↔ ∃ i, f i = some a ∧ ∀ j, j < i → f j = none := by
  rw [indices, ← Fin.findSome?_eq_findSome?_finRange, Fin.findSome?_eq_some_iff]

theorem findSome_indices_eq_none_iff {n : Nat} {α : Type} {f : Fin n → Option α} :
    (indices n).findSome? f = none ↔ ∀ i, f i = none := by
  simp [indices]

theorem mapCheck_of_point {d : Detail} (h : (indices 128).findSome? (pointCheck m) = some d) : mapCheck m = some d := by
  simp only [mapCheck, h]

theorem mapCheck_of_line {d : Detail} (hpoints : (indices 128).findSome? (pointCheck m) = none)
    (h : (indices 12).findSome? (lineCheck m) = some d) : mapCheck m = some d := by
  simp only [mapCheck, hpoints, h]

theorem mapCheck_of_rest (hpoints : (indices 128).findSome? (pointCheck m) = none)
    (hlines : (indices 12).findSome? (lineCheck m) = none) :
    mapCheck m = if anyIdx 4 fun f => (m.furnaces.get f).enabled then none else some ⟨3, 0, 4⟩ := by
  simp only [mapCheck, hpoints, hlines, tableFurnace]

theorem points_pass_iff : (indices 128).findSome? (pointCheck m) = none ↔ ∀ p, ¬ OffSlot m p ∧ ¬ OffTarget m p := by
  simp only [findSome_indices_eq_none_iff, pointCheck_eq_none_iff]

theorem lines_pass_iff : (indices 12).findSome? (lineCheck m) = none ↔ ∀ l, ¬ OffFurnace m l := by
  simp only [findSome_indices_eq_none_iff, lineCheck_eq_none_iff]

/-- A map passes exactly when no point, no line and not all furnaces offend (R12). -/
theorem mapCheck_eq_none_iff : mapCheck m = none ↔
    (∀ p, ¬ OffSlot m p ∧ ¬ OffTarget m p) ∧ (∀ l, ¬ OffFurnace m l) ∧ ∃ f, (m.furnaces.get f).enabled = true := by
  rw [← points_pass_iff, ← lines_pass_iff, ← anyIdx_iff]
  cases hpoints : (indices 128).findSome? (pointCheck m) with
  | some d => simp [mapCheck_of_point hpoints]
  | none =>
    cases hlines : (indices 12).findSome? (lineCheck m) with
    | some d => simp [mapCheck_of_line hpoints hlines]
    | none => simp [mapCheck_of_rest hpoints hlines]

theorem lineCheck_table {d : Detail} (h : lineCheck m l = some d) : d.table = 4 := by
  simp only [lineCheck] at h
  split at h
  · cases h; rfl
  · cases h

/-- A detail of table POINT is that of the first point that offends. -/
theorem exists_point_of_mapCheck {d : Detail} (h : mapCheck m = some d) (htable : d.table = 2) :
    ∃ p, pointCheck m p = some d ∧ ∀ q, q < p → pointCheck m q = none := by
  cases hpoints : (indices 128).findSome? (pointCheck m) with
  | some d' =>
    obtain rfl : d' = d := Option.some.inj ((mapCheck_of_point hpoints).symm.trans h)
    exact findSome_indices_eq_some_iff.mp hpoints
  | none =>
    exfalso
    cases hlines : (indices 12).findSome? (lineCheck m) with
    | some d' =>
      obtain rfl : d' = d := Option.some.inj ((mapCheck_of_line hpoints hlines).symm.trans h)
      obtain ⟨l, hl, -⟩ := findSome_indices_eq_some_iff.mp hlines
      rw [lineCheck_table hl] at htable
      cases htable
    | none =>
      rw [mapCheck_of_rest hpoints hlines] at h
      split at h
      · cases h
      · cases h; cases htable

theorem pointCheck_value {d : Detail} (h : pointCheck m p = some d) : d.value = p.val := by
  have hnone : ¬ (¬ OffSlot m p ∧ ¬ OffTarget m p) := fun hpass => by
    rw [pointCheck_eq_none_iff.mpr hpass] at h; cases h
  by_cases hslot : OffSlot m p
  · rw [pointCheck_of_offSlot hslot] at h; cases h; rfl
  · rw [pointCheck_of_offTarget hslot (not_not.mp fun htarget => hnone ⟨hslot, htarget⟩)] at h; cases h; rfl

end Checks

/-! ## COMMIT (R12, R13) -/

section Commit
variable {s : State}

theorem commitStaged_of_pending (h : s.plant.commitPending = true) : commitStaged [] s = (s, .result .done) := if_pos h

theorem commitStaged_of_loading (hpending : s.plant.commitPending = false) (h : s.store.op = .load) :
    commitStaged [] s = (s, .result .refusedBusy) := by
  simp [commitStaged, hpending, Store.loading, h]

theorem commitStaged_of_fault {d : Detail} (hpending : s.plant.commitPending = false) (hload : s.store.op ≠ .load)
    (h : mapCheck s.plant.staged = some d) : commitStaged [] s = (s, .range d) := by
  simp [commitStaged, hpending, Store.loading, hload, h]

theorem commitStaged_taken (hpending : s.plant.commitPending = false) (hload : s.store.op ≠ .load)
    (h : mapCheck s.plant.staged = none) : commitStaged [] s = s.takeCommit := by
  simp [commitStaged, hpending, Store.loading, hload, h]

end Commit

/-- Settles O22: the order of the command's checks, and the four checks of a map by the first that fails. -/
theorem commitIsCheckedAndTaken : Obligations.CommitIsCheckedAndTaken := by
  refine ⟨fun s hacc => ?_, fun m => ?_, fun m d h htable => ?_, fun m => ?_⟩
  · have result {s' : State} {r : Result} (ho : commitStaged [] s = (s', .result r)) :
        exec (.commit ⟨.e, []⟩) s = .next (s'.answered .e r (s.writeSent .e 0)) :=
      writeTransaction_result_of_owner hacc rfl rfl rfl ho
    refine ⟨fun hpending => result (commitStaged_of_pending hpending),
      fun hpending hload => result (commitStaged_of_loading hpending hload), fun hpending hload => ⟨fun d hd => ?_, ?_⟩⟩
    · exact writeTransaction_range_of_owner hacc rfl rfl rfl (commitStaged_of_fault hpending hload hd)
    · intro hpass
      have htaken := commitStaged_taken hpending hload hpass
      refine ⟨fun h => result (htaken.trans ?_), fun h => result (htaken.trans ?_), fun h => result (htaken.trans ?_)⟩
      · simp only [State.takeCommit, h]
      · simp only [State.takeCommit, h]
      · obtain h | h := h <;> simp only [State.takeCommit, h]
  · rw [mapCheck_eq_none_iff]
    refine and_congr (forall_congr' fun p => ?_) (and_congr (forall_congr' fun l => ?_) Iff.rfl)
    · rw [← not_or, OffSlot, OffTarget, ← and_or_left, not_and, not_or, Nat.not_le, Bool.not_eq_false]
      refine imp_congr_right fun _ => and_congr_right fun _ => ?_
      cases (m.points.get p).target with
      | furnace | line | pool => exact Iff.rfl
      | monitor => exact iff_of_true rfl trivial
    · rw [OffFurnace, not_and, Bool.not_eq_false]
  · obtain ⟨p, hp, hfirst⟩ := exists_point_of_mapCheck h htable
    exact ⟨p, pointCheck_value hp, hp, fun q hq => Nat.le_of_not_lt fun hlt => hq (hfirst q hlt)⟩
  · intro offSlot offTarget offFurnace
    have htarget (p : Fin 128) : OffTarget m p ↔ offTarget p := by
      refine and_congr_right fun _ => ?_
      cases (m.points.get p).target with
      | furnace | line | pool => exact Iff.rfl
      | monitor => exact iff_of_false nofun id
    have hpoint {p : Fin 128} {d : Detail} (hbefore : ∀ q, q < p → ¬ offSlot q ∧ ¬ offTarget q)
        (h : pointCheck m p = some d) : mapCheck m = some d :=
      mapCheck_of_point (findSome_indices_eq_some_iff.mpr ⟨p, h, fun q hq =>
        pointCheck_eq_none_iff.mpr ⟨(hbefore q hq).1, (htarget q).not.mpr (hbefore q hq).2⟩⟩)
    refine ⟨fun p hbefore => ⟨fun hoff => hpoint hbefore (pointCheck_of_offSlot hoff), fun hslot hoff =>
      hpoint hbefore (pointCheck_of_offTarget hslot ((htarget p).mpr hoff))⟩, fun hpass => ?_⟩
    have hpoints : (indices 128).findSome? (pointCheck m) = none :=
      points_pass_iff.mpr fun p => ⟨(hpass p).1, (htarget p).not.mpr (hpass p).2⟩
    refine ⟨fun l hbefore hoff => mapCheck_of_line hpoints (findSome_indices_eq_some_iff.mpr
      ⟨l, lineCheck_of_offFurnace hoff, fun k hk => lineCheck_eq_none_iff.mpr (hbefore k hk)⟩), fun hlines hnone => ?_⟩
    rw [mapCheck_of_rest hpoints (lines_pass_iff.mpr hlines), if_neg]
    rw [anyIdx_iff]
    rintro ⟨f, hf⟩
    rw [hnone f] at hf
    cases hf

end Sys2Proof.Machine
end

section
/-! PROOFS. The configuration store (R177 to R181, 13.7): the judgement of an image, the store's own events, and the image a save
writes (O36, O37). -/

namespace Sys2Proof.Machine

/-! ## An entry is read from its field bytes alone -/

section Prefix
variable (b : List Byte)

theorem globalOfImage_take : globalOfImage (b.take 7) = globalOfImage b := by
  simp (disch := omega) only [globalOfImage, natAt_take, byteAt_take, beAt_take]

theorem linkOfImage_take : linkOfImage (b.take 3) = linkOfImage b := by
  simp (disch := omega) only [linkOfImage, natAt_take]

theorem pointOfImage_take : pointOfImage (b.take 12) = pointOfImage b := by
  simp (disch := omega) only [pointOfImage, natAt_take, beAt_take]

theorem furnaceOfImage_take : furnaceOfImage (b.take 3) = furnaceOfImage b := by
  simp (disch := omega) only [furnaceOfImage, natAt_take, beAt_take]

theorem lineOfImage_take : lineOfImage (b.take 10) = lineOfImage b := by
  have hweights (p : Fin 4) : natAt (b.take 10) (6 + p.val) = natAt b (6 + p.val) := natAt_take (by omega) b
  simp (disch := omega) only [lineOfImage, natAt_take, beAt_take, hweights]

theorem poolOfImage_take : poolOfImage (b.take 2) = poolOfImage b := by
  simp (disch := omega) only [poolOfImage, natAt_take]

theorem curveOfImage_take : curveOfImage (b.take 32) = curveOfImage b := by
  have hgain (s : Fin 16) : beAt (b.take 32) (2 * s.val) 2 = beAt b (2 * s.val) 2 := beAt_take (by omega) b
  simp only [curveOfImage, hgain]

end Prefix

/-! ## Stretches of the image area -/

section Area
variable {img : List Host.Cell} {a n k j : Nat}

theorem slice_imageBytes (h : k + j ≤ n) : slice (Image.bytes img a n) k j = Image.bytes img (a + k) j := by
  refine List.ext_getElem (by simp [slice]; omega) fun i hi hi' => ?_
  simp [slice, Image.bytes, Nat.add_assoc]

theorem take_imageBytes (h : j ≤ n) : (Image.bytes img a n).take j = Image.bytes img a j :=
  (slice_imageBytes (k := 0) (by omega)).trans rfl

theorem natAt_imageBytes (h : k < n) : natAt (Image.bytes img a n) k = (Image.read img (a + k)).toNat := by
  simp [natAt, byteAt, Image.bytes, h]

/-- The number of two bytes of the area. -/
def areaTwo (img : List Host.Cell) (k : Nat) : Nat := (Image.read img k).toNat * 256 + (Image.read img (k + 1)).toNat

/-- The number of four. -/
def areaWord (img : List Host.Cell) (k : Nat) : Nat := areaTwo img k * 65536 + areaTwo img (k + 2)

theorem beNat_imageBytes_two (img : List Host.Cell) (a : Nat) : beNat (Image.bytes img a 2) = areaTwo img a := by
  simp [Image.bytes, List.range_succ, beNat, areaTwo]

theorem imageBytes_four (img : List Host.Cell) (a : Nat) : Image.bytes img a 4 =
    [Image.read img a, Image.read img (a + 1), Image.read img (a + 2), Image.read img (a + 3)] := by
  simp [Image.bytes, List.range_succ]

theorem beNat_imageBytes_four (img : List Host.Cell) (a : Nat) : beNat (Image.bytes img a 4) = areaWord img a := by
  simp only [imageBytes_four, beNat, List.foldl_cons, List.foldl_nil, areaWord, areaTwo, Nat.add_assoc,
    Nat.reduceAdd]
  omega

theorem imageBytes_add (img : List Host.Cell) (a m n : Nat) :
    Image.bytes img a (m + n) = Image.bytes img a m ++ Image.bytes img (a + m) n := by
  simp [Image.bytes, List.range_add, Nat.add_assoc, Function.comp_def]

/-- The check word of a stretch of words is their sum modulo 2^32 (R178 step 4). -/
theorem checkWord_imageBytes (img : List Host.Cell) (a n : Nat) :
    checkWord (Image.bytes img a (4 * n)) = (∑ k : Fin n, areaWord img (a + 4 * k.val)) % 4294967296 := by
  induction n generalizing a with
  | zero => rfl
  | succ n ih =>
    have hword := beNat_imageBytes_four img a
    rw [Nat.mul_succ, Nat.add_comm, imageBytes_add, imageBytes_four, Fin.sum_univ_succ]
    rw [imageBytes_four] at hword
    have hnext (k : Fin n) : a + 4 * (k.val + 1) = a + 4 + 4 * k.val := by omega
    simp only [List.cons_append, List.nil_append, checkWord, hword, ih (a + 4), Nat.add_mod_mod, Fin.val_zero, Nat.mul_zero,
      Nat.add_zero, Fin.val_succ, hnext]

end Area

/-! ## The entries of an image (13.7) -/

section Entries
variable {img : List Host.Cell} {m : PlantMap} {e : List Byte}

/-- Where a table starts in the body, and the size of its entries (13.7). -/
def tableStart : Nat → Nat × Nat
  | 0 => (0, 8)
  | 1 => (8, 4)
  | 2 => (40, 12)
  | 3 => (1576, 4)
  | 4 => (1592, 12)
  | 5 => (1736, 4)
  | _ => (1752, 32)

/-- The 32 bytes of the area from the start of an entry. -/
def areaEntry (img : List Host.Cell) (table index : Nat) : List Byte :=
  Image.bytes img (12 + (tableStart table).1 + (tableStart table).2 * index) 32

theorem length_areaEntry (img : List Host.Cell) (table index : Nat) : (areaEntry img table index).length = 32 :=
  length_imageBytesAt ..

theorem setAt_eq_self_iff {n : Nat} {α : Type} {t : Tab n α} {i : Fin n} {a : α} : setAt t i.val a = t ↔ t.get i = a := by
  constructor
  · intro h
    rw [← h, get_setAt, if_pos rfl]
  · rintro rfl
    rw [setAt_of_toIdx (toIdx_val i), Tab.set_get_self]

theorem selectorFault_of_index {table n : Nat} (hn : tableEntries table = some n) (i : Fin n) :
    selectorFault table i.val = none := (selectorFault_of_entries hn i.val).trans (if_pos i.isLt)

/-! The image of an entry, written to a map, leaves it exactly when the map's entry is the one it spells. -/

theorem writeEntry_global_iff : writeEntry m 0 0 e = .ok m ↔ globalOfImage e = .ok m.global := by
  refine map_fieldDetail_eq_ok_iff.trans ⟨?_, fun h => ⟨_, h, rfl⟩⟩
  rintro ⟨g, hg, hm⟩
  rw [hg, ← hm]

theorem writeEntry_link_iff (i : Fin 8) : writeEntry m 1 i.val e = .ok m ↔ linkOfImage e = .ok (m.links.get i) := by
  rw [writeEntry, selectorFault_of_index rfl i]
  refine map_fieldDetail_eq_ok_iff.trans ⟨?_, fun h => ⟨_, h, by rw [setAt_eq_self_iff.mpr rfl]⟩⟩
  rintro ⟨x, hx, hm⟩
  rw [hx, setAt_eq_self_iff.mp (congrArg PlantMap.links hm)]

theorem writeEntry_point_iff (i : Fin 128) : writeEntry m 2 i.val e = .ok m ↔ pointOfImage e = .ok (m.points.get i) := by
  rw [writeEntry, selectorFault_of_index rfl i]
  refine map_fieldDetail_eq_ok_iff.trans ⟨?_, fun h => ⟨_, h, by rw [setAt_eq_self_iff.mpr rfl]⟩⟩
  rintro ⟨x, hx, hm⟩
  rw [hx, setAt_eq_self_iff.mp (congrArg PlantMap.points hm)]

theorem writeEntry_furnace_iff (i : Fin 4) : writeEntry m 3 i.val e = .ok m ↔ furnaceOfImage e = .ok (m.furnaces.get i) := by
  rw [writeEntry, selectorFault_of_index rfl i]
  refine map_fieldDetail_eq_ok_iff.trans ⟨?_, fun h => ⟨_, h, by rw [setAt_eq_self_iff.mpr rfl]⟩⟩
  rintro ⟨x, hx, hm⟩
  rw [hx, setAt_eq_self_iff.mp (congrArg PlantMap.furnaces hm)]

theorem writeEntry_line_iff (i : Fin 12) : writeEntry m 4 i.val e = .ok m ↔ lineOfImage e = .ok (m.lines.get i) := by
  rw [writeEntry, selectorFault_of_index rfl i]
  refine map_fieldDetail_eq_ok_iff.trans ⟨?_, fun h => ⟨_, h, by rw [setAt_eq_self_iff.mpr rfl]⟩⟩
  rintro ⟨x, hx, hm⟩
  rw [hx, setAt_eq_self_iff.mp (congrArg PlantMap.lines hm)]

theorem writeEntry_pool_iff (i : Fin 4) : writeEntry m 5 i.val e = .ok m ↔ poolOfImage e = .ok (m.pools.get i) := by
  rw [writeEntry, selectorFault_of_index rfl i]
  refine map_fieldDetail_eq_ok_iff.trans ⟨?_, fun h => ⟨_, h, by rw [setAt_eq_self_iff.mpr rfl]⟩⟩
  rintro ⟨x, hx, hm⟩
  rw [hx, setAt_eq_self_iff.mp (congrArg PlantMap.pools hm)]

theorem writeEntry_curve_iff (i : Fin 8) : writeEntry m 6 i.val e = .ok m ↔ curveOfImage e = m.curves.get i := by
  have hwrite : writeEntry m 6 i.val e = .ok { m with curves := setAt m.curves i.val (curveOfImage e) } := by
    rw [writeEntry, selectorFault_of_index rfl i]
    all_goals nofun
  rw [hwrite, Except.ok.injEq]
  refine ⟨fun hm => (setAt_eq_self_iff.mp (congrArg PlantMap.curves hm)).symm, fun h => ?_⟩
  rw [setAt_eq_self_iff.mpr h.symm]

/-- Every entry of the image area spells the map's (13.7). -/
def Spells (img : List Host.Cell) (m : PlantMap) : Prop :=
  ∀ table index n, tableEntries table = some n → index < n → writeEntry m table index (areaEntry img table index) = .ok m

theorem spells_iff : Spells img m ↔
    globalOfImage (areaEntry img 0 0) = .ok m.global ∧
    (∀ i, linkOfImage (areaEntry img 1 i.val) = .ok (m.links.get i)) ∧
    (∀ i, pointOfImage (areaEntry img 2 i.val) = .ok (m.points.get i)) ∧
    (∀ i, furnaceOfImage (areaEntry img 3 i.val) = .ok (m.furnaces.get i)) ∧
    (∀ i, lineOfImage (areaEntry img 4 i.val) = .ok (m.lines.get i)) ∧
    (∀ i, poolOfImage (areaEntry img 5 i.val) = .ok (m.pools.get i)) ∧
    ∀ i, curveOfImage (areaEntry img 6 i.val) = m.curves.get i := by
  constructor
  · intro h
    exact ⟨writeEntry_global_iff.mp (h 0 0 1 rfl (by decide)), fun i => (writeEntry_link_iff i).mp (h 1 i 8 rfl i.isLt),
      fun i => (writeEntry_point_iff i).mp (h 2 i 128 rfl i.isLt),
      fun i => (writeEntry_furnace_iff i).mp (h 3 i 4 rfl i.isLt),
      fun i => (writeEntry_line_iff i).mp (h 4 i 12 rfl i.isLt), fun i => (writeEntry_pool_iff i).mp (h 5 i 4 rfl i.isLt),
      fun i => (writeEntry_curve_iff i).mp (h 6 i 8 rfl i.isLt)⟩
  · rintro ⟨hglobal, hlinks, hpoints, hfurnaces, hlines, hpools, hcurves⟩ table index n hn hi
    match table with
    | 0 =>
      cases hn
      obtain rfl : index = 0 := Nat.lt_one_iff.mp hi
      exact writeEntry_global_iff.mpr hglobal
    | 1 => cases hn; exact (writeEntry_link_iff ⟨index, hi⟩).mpr (hlinks ⟨index, hi⟩)
    | 2 => cases hn; exact (writeEntry_point_iff ⟨index, hi⟩).mpr (hpoints ⟨index, hi⟩)
    | 3 => cases hn; exact (writeEntry_furnace_iff ⟨index, hi⟩).mpr (hfurnaces ⟨index, hi⟩)
    | 4 => cases hn; exact (writeEntry_line_iff ⟨index, hi⟩).mpr (hlines ⟨index, hi⟩)
    | 5 => cases hn; exact (writeEntry_pool_iff ⟨index, hi⟩).mpr (hpools ⟨index, hi⟩)
    | 6 => cases hn; exact (writeEntry_curve_iff ⟨index, hi⟩).mpr (hcurves ⟨index, hi⟩)
    | _ + 7 => cases hn

/-- The entry of a body, as the judgement reads it, is the entry of the area. -/
theorem bodyEntry_eq_some_iff_area {α : Type} {read : List Byte → Except Nat α} {base size j k : Nat} {x : α}
    (hread : ∀ b, read (b.take j) = read b) (hsize : j ≤ size) (hentry : size ≤ 32)
    (hbody : base + size * k + size ≤ 2012) :
    bodyEntry read (Image.bytes img 12 2012) base size k = some x ↔
      read (Image.bytes img (12 + base + size * k) 32) = .ok x := by
  have hslice : ((Image.bytes img 12 2012).drop (base + size * k)).take size =
      Image.bytes img (12 + base + size * k) size := by
    rw [Nat.add_assoc 12]
    exact slice_imageBytes hbody
  rw [bodyEntry_eq_some_iff, hslice, ← hread, take_imageBytes hsize, ← hread (Image.bytes _ _ 32),
    take_imageBytes (hsize.trans hentry)]

theorem mapOfBody_eq_some_iff_spells : mapOfBody (Image.bytes img 12 bodyLength) = some m ↔ Spells img m := by
  rw [mapOfBody_eq_some_iff, spells_iff]
  refine and_congr ?_ (and_congr (forall_congr' fun i => ?_) (and_congr (forall_congr' fun i => ?_)
    (and_congr (forall_congr' fun i => ?_) (and_congr (forall_congr' fun i => ?_) (and_congr (forall_congr' fun i => ?_)
      ?_)))))
  · exact bodyEntry_eq_some_iff_area globalOfImage_take (by decide) (by decide) (by omega)
  · exact bodyEntry_eq_some_iff_area linkOfImage_take (by decide) (by decide) (by omega)
  · exact bodyEntry_eq_some_iff_area pointOfImage_take (by decide) (by decide) (by omega)
  · exact bodyEntry_eq_some_iff_area furnaceOfImage_take (by decide) (by decide) (by omega)
  · exact bodyEntry_eq_some_iff_area lineOfImage_take (by decide) (by decide) (by omega)
  · exact bodyEntry_eq_some_iff_area poolOfImage_take (by decide) (by decide) (by omega)
  · have hslice (i : Fin 8) : curveOfImage (((Image.bytes img 12 bodyLength).drop (1752 + 32 * i.val)).take 32) =
        curveOfImage (areaEntry img 6 i.val) := by
      have hbytes : ((Image.bytes img 12 bodyLength).drop (1752 + 32 * i.val)).take 32 = areaEntry img 6 i.val := by
        rw [areaEntry, tableStart, Nat.add_assoc 12]
        · exact slice_imageBytes (by rw [bodyLength]; omega)
        all_goals nofun
      rw [hbytes]
    simp only [hslice, Tab.ext_get_iff, Tab.get_ofFn, eq_comm]

/-- An entry offends when some field of it does. -/
theorem writeEntry_error_iff {table index n : Nat} (hn : tableEntries table = some n) (hi : index < n) :
    (∃ d, writeEntry m table index e = .error d) ↔ imageFault table e ≠ none := by
  cases hfault : imageFault table e with
  | none =>
    obtain ⟨m', hok⟩ := writeEntry_of_no_fault (m := m) hn hi hfault
    simp [hok]
  | some k => simp [writeEntry_of_fault hn hi hfault]

/-- The area spells a map exactly when no entry offends (R178 step 5). -/
theorem exists_spells_iff : (∃ m, Spells img m) ↔
    ∀ table index n, tableEntries table = some n → index < n → imageFault table (areaEntry img table index) = none := by
  constructor
  · rintro ⟨m, hm⟩ table index n hn hi
    by_contra hfault
    obtain ⟨d, hd⟩ := (writeEntry_error_iff (m := m) hn hi).mpr hfault
    rw [hm table index n hn hi] at hd
    cases hd
  · intro h
    obtain ⟨g, hglobal⟩ := faultOf_eq_none_iff.mp (h 0 0 1 rfl (by decide))
    choose links hlinks using fun i : Fin 8 => faultOf_eq_none_iff.mp (h 1 i 8 rfl i.isLt)
    choose points hpoints using fun i : Fin 128 => faultOf_eq_none_iff.mp (h 2 i 128 rfl i.isLt)
    choose furnaces hfurnaces using fun i : Fin 4 => faultOf_eq_none_iff.mp (h 3 i 4 rfl i.isLt)
    choose lines hlines using fun i : Fin 12 => faultOf_eq_none_iff.mp (h 4 i 12 rfl i.isLt)
    choose pools hpools using fun i : Fin 4 => faultOf_eq_none_iff.mp (h 5 i 4 rfl i.isLt)
    refine ⟨⟨g, .ofFn links, .ofFn points, .ofFn furnaces, .ofFn lines, .ofFn pools,
      .ofFn fun i => curveOfImage (areaEntry img 6 i.val)⟩, spells_iff.mpr ⟨hglobal, ?_⟩⟩
    simp only [Tab.get_ofFn]
    exact ⟨hlinks, hpoints, hfurnaces, hlines, hpools, fun _ => trivial⟩

end Entries

/-! ## The judgement (R178) -/

section Judgement
variable {img : List Host.Cell} {body : List Byte} {m : PlantMap} {lags : Tab 4 Nat}

theorem judgeBody_of_no_map (h : mapOfBody body = none) : judgeBody body = .bad 5 := by
  simp only [judgeBody, h]

theorem judgeBody_of_no_lags (h : lagsOfBody body = none) : judgeBody body = .bad 5 := by
  unfold judgeBody
  rw [h]
  cases mapOfBody body <;> rfl

theorem judgeBody_of_check (hm : mapOfBody body = some m) (hl : lagsOfBody body = some lags) (h : mapCheck m ≠ none) :
    judgeBody body = .bad 6 := by
  obtain ⟨d, hd⟩ := Option.ne_none_iff_exists'.mp h
  simp [judgeBody, hm, hl, hd]

theorem judgeBody_of_good (hm : mapOfBody body = some m) (hl : lagsOfBody body = some lags) (h : mapCheck m = none) :
    judgeBody body = .good m lags := judgeBody_eq_good_iff.mpr ⟨hm, hl, h⟩

/-- The lags of an area (13.7). -/
theorem lagsOfBody_eq_some_iff_area : lagsOfBody (Image.bytes img 12 bodyLength) = some lags ↔
    (∀ f, lags.get f = (Image.read img (2020 + f.val)).toNat) ∧ ∀ f : Fin 4, (Image.read img (2020 + f.val)).toNat ≤ 63 := by
  have hlag (f : Fin 4) : natAt (Image.bytes img 12 bodyLength) (2008 + f.val) = (Image.read img (2020 + f.val)).toNat := by
    rw [natAt_imageBytes (by rw [bodyLength]; omega), ← Nat.add_assoc]
  rw [lagsOfBody_eq_some_iff]
  simp only [hlag]
  exact and_congr_right fun h => by simp only [h]

theorem exists_lags_iff :
    (∃ lags, lagsOfBody (Image.bytes img 12 bodyLength) = some lags) ↔
      ∀ f : Fin 4, (Image.read img (2020 + f.val)).toNat ≤ 63 := by
  simp only [lagsOfBody_eq_some_iff_area]
  exact ⟨fun ⟨_, _, h⟩ => h, fun h => ⟨.ofFn fun f => (Image.read img (2020 + f.val)).toNat, by simp, h⟩⟩

theorem judgeImage_of_tag (h : areaTwo img 0 ≠ 24082) : judgeImage img = .bad 1 := by
  rw [← beNat_imageBytes_two] at h
  exact if_pos h

theorem judgeImage_of_version (htag : areaTwo img 0 = 24082) (h : areaTwo img 2 ≠ 1) : judgeImage img = .bad 2 := by
  rw [← beNat_imageBytes_two] at htag h
  exact (if_neg (not_not.mpr htag)).trans (if_pos h)

theorem judgeImage_of_length (htag : areaTwo img 0 = 24082) (hversion : areaTwo img 2 = 1) (h : areaWord img 4 ≠ 2012) :
    judgeImage img = .bad 3 := by
  rw [← beNat_imageBytes_two] at htag hversion
  rw [← beNat_imageBytes_four] at h
  exact (if_neg (not_not.mpr htag)).trans ((if_neg (not_not.mpr hversion)).trans (if_pos h))

/-- The check word of an area's body (R178 step 4). -/
def areaCheck (img : List Host.Cell) : Nat := (∑ k : Fin 503, areaWord img (12 + 4 * k.val)) % 4294967296

theorem checkWord_body (img : List Host.Cell) : checkWord (Image.bytes img 12 bodyLength) = areaCheck img :=
  checkWord_imageBytes img 12 503

theorem judgeImage_of_header (htag : areaTwo img 0 = 24082) (hversion : areaTwo img 2 = 1) (hlength : areaWord img 4 = 2012) :
    judgeImage img =
      if areaWord img 8 ≠ areaCheck img then .bad 4 else judgeBody (Image.bytes img 12 bodyLength) := by
  rw [← beNat_imageBytes_two] at htag hversion
  rw [← beNat_imageBytes_four] at hlength
  rw [← beNat_imageBytes_four, ← checkWord_body]
  exact (if_neg (not_not.mpr htag)).trans ((if_neg (not_not.mpr hversion)).trans (if_neg (not_not.mpr hlength)))

/-- Step 5 fails where an entry or a lag is out of range. -/
theorem judgeBody_of_offends
    (h : (¬ ∃ m, Spells img m) ∨ ¬ ∀ f : Fin 4, (Image.read img (2020 + f.val)).toNat ≤ 63) :
    judgeBody (Image.bytes img 12 bodyLength) = .bad 5 := by
  obtain hmap | hlags := h
  · refine judgeBody_of_no_map (Option.eq_none_iff_forall_ne_some.mpr fun m hm => hmap ⟨m, ?_⟩)
    exact mapOfBody_eq_some_iff_spells.mp hm
  · refine judgeBody_of_no_lags (Option.eq_none_iff_forall_ne_some.mpr fun lags hl => hlags ?_)
    exact exists_lags_iff.mp ⟨lags, hl⟩

end Judgement

/-! ## The store's events (R19, R179 to R181) -/

section Events
variable {s : State} {m : PlantMap} {lags : Tab 4 Nat} {k : Nat}

theorem State.completeLoad_of_good (h : judgeImage s.store.image = .good m lags) :
    s.completeLoad = ((s.setStore (s.store.finish .load .good 0)).setStaged m).notify .storeDone := by
  simp only [State.completeLoad, h]

theorem State.completeLoad_of_bad (h : judgeImage s.store.image = .bad k) :
    s.completeLoad = ((s.setStore (s.store.finish .load .bad k)).notify .imageFault).notify .storeDone := by
  simp only [State.completeLoad, h]

theorem State.endBooting_of_good (h : judgeImage s.store.image = .good m lags) : s.endBooting = { s with
      plant := { s.plant with staged := m, active := m }
      furnaces := s.furnaces.mapIdx fun f x => { x with lag := lags.get f }
      store := s.store.finish .startUp .good 0
      ctrl := { s.ctrl with acc := .ready } } := by
  simp only [State.endBooting, h]

theorem State.endBooting_of_bad (h : judgeImage s.store.image = .bad k) : s.endBooting = ({ s with
      plant := { s.plant with staged := .empty, active := .empty }
      furnaces := s.furnaces.mapIdx fun _ x => { x with lag := 0 }
      store := s.store.finish .startUp .bad k
      ctrl := { s.ctrl with acc := .unconfigured } } : State).notify .imageFault := by
  simp only [State.endBooting, h]

end Events

/-- Settles O36: the judgement step by step, then each event of the store. -/
theorem storeOperationsRunToCompletion : Obligations.StoreOperationsRunToCompletion := by
  refine ⟨fun img => ?_, fun s => ⟨fun m lags k hop hk => ?_, fun m lags k hop hk => ?_, fun hop => ⟨fun m lags hgood => ?_,
    fun k hbad => ?_⟩, fun hacc => ⟨fun m lags hgood => ?_, fun k hbad => ?_⟩⟩⟩
  · intro one two word start entry offends
    refine ⟨judgeImage_of_tag, judgeImage_of_version, judgeImage_of_length, fun htag hversion hlength => ?_⟩
    have hjudge := judgeImage_of_header htag hversion hlength
    refine ⟨fun hcheck => hjudge.trans (if_pos hcheck), fun hcheck => ?_⟩
    replace hjudge := hjudge.trans (if_neg (not_not.mpr hcheck))
    have hoffends : offends ↔ (¬ ∃ m, Spells img m) ∨ ¬ ∀ f : Fin 4, one (2020 + f.val) ≤ 63 := by
      have hentry (table index : Nat) : entry table index = areaEntry img table index := by
        match table with
        | 0 | 1 | 2 | 3 | 4 | 5 | _ + 6 => rfl
      rw [exists_spells_iff]
      push Not
      refine or_congr ?_ Iff.rfl
      refine exists_congr fun table => exists_congr fun index => exists_congr fun n => ?_
      rw [hentry]
      constructor
      · rintro ⟨d, hn, hi, hd⟩
        exact ⟨hn, hi, (writeEntry_error_iff hn hi).mp ⟨d, hd⟩⟩
      · rintro ⟨hn, hi, hfault⟩
        obtain ⟨d, hd⟩ := (writeEntry_error_iff (m := .empty) hn hi).mpr hfault
        exact ⟨d, hn, hi, hd⟩
    rw [hoffends, hjudge]
    refine ⟨judgeBody_of_offends, fun hnot => ?_⟩
    obtain ⟨hmap, hlags⟩ := not_or.mp hnot
    obtain ⟨m, hm⟩ := not_not.mp hmap
    obtain ⟨lags, hl⟩ := exists_lags_iff.mpr (not_not.mp hlags)
    have hm' := mapOfBody_eq_some_iff_spells.mpr hm
    exact ⟨m, lags, hm, (lagsOfBody_eq_some_iff_area.mp hl).1, judgeBody_of_check hm' hl, judgeBody_of_good hm' hl⟩
  · refine ⟨_, congrArg (fun st => Host.Outcome.next (s.setStore st)) (Store.writeByte_of_save hop hk),
      Image.read_write_self .., fun a ha => Image.read_write_ne _ _ ha⟩
  · exact congrArg Host.Outcome.next (if_pos (Store.saveWritten_iff.mpr ⟨m, lags, k, hop, hk⟩))
  · exact congrArg Host.Outcome.next ((if_pos hop).trans (State.completeLoad_of_good hgood))
  · exact congrArg Host.Outcome.next ((if_pos hop).trans (State.completeLoad_of_bad hbad))
  · exact congrArg Host.Outcome.next ((if_pos hacc).trans (State.endBooting_of_good hgood))
  · exact congrArg Host.Outcome.next ((if_pos hacc).trans (State.endBooting_of_bad hbad))

/-! ## An entry read from its own image (13.5) -/

section RoundTrip
variable {a b : List Byte} {k n : Nat}

theorem byteAt_append (h : a.length ≤ k) (b : List Byte) : byteAt (a ++ b) k = byteAt b (k - a.length) := by
  rw [byteAt, byteAt, List.getD_append_right _ _ _ _ h]

theorem natAt_append (h : a.length ≤ k) (b : List Byte) : natAt (a ++ b) k = natAt b (k - a.length) := by
  rw [natAt, byteAt_append h, natAt]

theorem beAt_append (h : a.length ≤ k) (b : List Byte) : beAt (a ++ b) k n = beAt b (k - a.length) n := by
  obtain ⟨j, rfl⟩ := Nat.exists_eq_add_of_le h
  simp [beAt]

@[simp] theorem byteAt_cons_zero (x : Byte) (b : List Byte) : byteAt (x :: b) 0 = x := rfl

@[simp] theorem byteAt_cons_succ (x : Byte) (b : List Byte) (k : Nat) : byteAt (x :: b) (k + 1) = byteAt b k := rfl

@[simp] theorem beAt_cons_succ (x : Byte) (b : List Byte) (k n : Nat) : beAt (x :: b) (k + 1) n = beAt b k n := rfl

theorem beAt_toBE_append {x : Nat} (h : x < 256 ^ n) (b : List Byte) : beAt (toBE n x ++ b) 0 n = x := by
  have hread := beAt_append_toBE (a := []) (c := b) rfl n x
  rwa [List.nil_append, Nat.mod_eq_of_lt h] at hread

theorem beAt_toBE_of_lt {x : Nat} (h : x < 256 ^ n) : beAt (toBE n x) 0 n = x := by
  rw [beAt_toBE, Nat.mod_eq_of_lt h]

theorem flagField_flagByte (n : Nat) (x : Bool) : flagField n (flagByte x).toNat = .ok x := by cases x <;> rfl

theorem maskField_maskByte (n : Nat) (x : PerKind Bool) : maskField n (maskByte x) = .ok x := by
  have hbits : ∀ c d e f : Bool, (maskByte ⟨c, d, e, f⟩).toNat ≤ 15 ∧ (maskByte ⟨c, d, e, f⟩).getLsbD 0 = c ∧
      (maskByte ⟨c, d, e, f⟩).getLsbD 1 = d ∧ (maskByte ⟨c, d, e, f⟩).getLsbD 2 = e ∧
      (maskByte ⟨c, d, e, f⟩).getLsbD 3 = f := by decide
  obtain ⟨c, d, e, f⟩ := x
  obtain ⟨hle, h0, h1, h2, h3⟩ := hbits c d e f
  rw [maskField, if_pos hle, h0, h1, h2, h3]

theorem rangeField_of_mem {lo hi x : Nat} (h : lo ≤ x ∧ x ≤ hi) (n : Nat) : rangeField n lo hi x = .ok x := if_pos h

theorem codeField_some {α : Type} (n : Nat) (x : α) : codeField n (some x) = .ok x := rfl

@[simp] theorem linkModeOfCode_code (x : LinkMode) : linkModeOfCode (linkModeCode x) = some x := by cases x <;> rfl
@[simp] theorem carrierOfCode_code (x : Carrier) : carrierOfCode (carrierCode x) = some x := by cases x <;> rfl
@[simp] theorem basisOfCode_code (x : Basis) : basisOfCode (basisCode x) = some x := by cases x <;> rfl

@[simp] theorem targetOfCodes_codes (x : Target) : targetOfCodes (targetKindCode x) (targetIndex x) = some x := by
  cases x with
  | furnace i | line i | pool i => exact congrArg (Option.map _) (toIdx_val i)
  | monitor => rfl

theorem linkModeCode_lt (x : LinkMode) : linkModeCode x < 256 := by cases x <;> decide
theorem carrierCode_lt (x : Carrier) : carrierCode x < 256 := by cases x <;> decide
theorem basisCode_lt (x : Basis) : basisCode x < 256 := by cases x <;> decide
theorem targetKindCode_le (x : Target) : targetKindCode x ≤ 3 := by cases x <;> simp [targetKindCode]

theorem targetIndex_lt (x : Target) : targetIndex x < 256 := by
  cases x with
  | furnace i | line i | pool i => exact i.isLt.trans (by decide)
  | monitor => decide

theorem curveNumber_lt (x : Option (Fin 8)) : curveNumber x < 256 := by
  cases x with
  | none => decide
  | some c => exact c.isLt.trans (by decide)

theorem curveField_curveNumber (n : Nat) (x : Option (Fin 8)) : curveField n (curveNumber x) = .ok x := by
  cases x with
  | none => rfl
  | some c =>
    have hne : c.val ≠ 15 := by omega
    rw [curveNumber, curveField, if_neg hne, toIdx_val]
    rfl

theorem globalOfImage_image {g : GlobalEntry} (h : g.Fits) : globalOfImage (globalImage g) = .ok g := by
  obtain ⟨hhold, hthreshold, hmin⟩ := h
  have hh : (byteOf g.holdLimit).toNat = g.holdLimit := byteOf_toNat (by omega)
  have ht : (byteOf g.threshold).toNat = g.threshold := byteOf_toNat (by omega)
  have hm : beAt (toBE 2 g.plantMin) 0 2 = g.plantMin := beAt_toBE_of_lt (by omega)
  simp only [globalOfImage, globalImage, List.cons_append, List.nil_append, natAt_cons_zero, natAt_cons_succ,
    byteAt_cons_zero, byteAt_cons_succ, beAt_cons_succ, hh, ht, hm, maskField_maskByte, flagField_flagByte,
    rangeField_of_mem ⟨Nat.zero_le _, hhold⟩, rangeField_of_mem hthreshold, rangeField_of_mem hmin, Except.bind]

theorem linkOfImage_image {e : LinkEntry} (h : e.Fits) : linkOfImage (linkImage e) = .ok e := by
  obtain ⟨hid, hcount⟩ := h
  have hm : (byteOf (linkModeCode e.mode)).toNat = linkModeCode e.mode := byteOf_toNat (linkModeCode_lt _)
  have hi : (byteOf e.concentrator).toNat = e.concentrator := byteOf_toNat (by omega)
  have hc : (byteOf e.pointCount).toNat = e.pointCount := byteOf_toNat (by omega)
  simp only [linkOfImage, linkImage, natAt_cons_zero, natAt_cons_succ, hm, hi, hc, linkModeOfCode_code, codeField_some,
    rangeField_of_mem ⟨Nat.zero_le _, hid⟩, rangeField_of_mem hcount, Except.bind]

theorem furnaceOfImage_image {e : FurnaceEntry} (h : e.Fits) : furnaceOfImage (furnaceImage e) = .ok e := by
  have hm : beAt (toBE 2 e.minMass) 0 2 = e.minMass := beAt_toBE_of_lt (Nat.lt_succ_of_le h.2)
  simp only [furnaceOfImage, furnaceImage, natAt_cons_zero, beAt_cons_succ, hm, flagField_flagByte, rangeField_of_mem h,
    Except.bind]

theorem poolOfImage_image (e : PoolEntry) : poolOfImage (poolImage e) = .ok e := by
  have hb : (byteOf (basisCode e.basis)).toNat = basisCode e.basis := byteOf_toNat (basisCode_lt _)
  simp only [poolOfImage, poolImage, natAt_cons_zero, natAt_cons_succ, hb, flagField_flagByte, basisOfCode_code,
    codeField_some, Except.bind]

theorem pointOfImage_image {e : PointEntry} (h : e.Fits) : pointOfImage (pointImage e) = .ok e := by
  obtain ⟨hfactor, hmax⟩ := h
  have hc : (byteOf (carrierCode e.carrier)).toNat = carrierCode e.carrier := byteOf_toNat (carrierCode_lt _)
  have hk : (byteOf (targetKindCode e.target)).toNat = targetKindCode e.target :=
    byteOf_toNat ((targetKindCode_le _).trans_lt (by decide))
  have hi : (byteOf (targetIndex e.target)).toNat = targetIndex e.target := byteOf_toNat (targetIndex_lt _)
  have hv : (byteOf (curveNumber e.curve)).toNat = curveNumber e.curve := byteOf_toNat (curveNumber_lt _)
  have hf (b : List Byte) : beAt (toBE 4 e.factor ++ b) 0 4 = e.factor := beAt_toBE_append (Nat.lt_succ_of_le hfactor) b
  have hx : beAt (toBE 3 e.maxInc) 0 3 = e.maxInc := beAt_toBE_of_lt (by omega)
  have hlength (x : Nat) : (toBE 4 x).length ≤ 4 := (length_toBE 4 x).le
  have hcurve (x : Nat) (b : List Byte) : natAt (toBE 4 x ++ b) 4 = natAt b 0 := by
    rw [natAt_append (hlength x), length_toBE]
  have hmaxAt (x : Nat) (b : List Byte) (n : Nat) : beAt (toBE 4 x ++ b) 5 n = beAt b 1 n := by
    rw [beAt_append ((hlength x).trans (by decide)), length_toBE]
  simp only [pointOfImage, pointImage, List.cons_append, List.nil_append, List.append_assoc, natAt_cons_zero,
    natAt_cons_succ, beAt_cons_succ, hcurve, hmaxAt, hc, hk, hi, hv, hf, hx, flagField_flagByte, carrierOfCode_code,
    targetOfCodes_codes, codeField_some, curveField_curveNumber,
    rangeField_of_mem ⟨Nat.zero_le _, targetKindCode_le e.target⟩, rangeField_of_mem hmax, Except.bind]

theorem natAt_map_byteOf (t : Tab 4 Nat) (p : Fin 4) (h : t.get p ≤ 255) : natAt (t.list.map byteOf) p.val = t.get p := by
  have hp : p.val < (t.list.map byteOf).length := by rw [List.length_map, t.len]; exact p.isLt
  rw [natAt, byteAt, List.getD_eq_getElem _ _ hp, List.getElem_map]
  exact byteOf_toNat (Nat.lt_succ_of_le h)

theorem lineOfImage_image {e : LineEntry} (h : e.Fits) : lineOfImage (lineImage e) = .ok e := by
  obtain ⟨hgobs, hgobs', hmin, hmin', hweights⟩ := h
  have hf : (byteOf e.furnace.val).toNat = e.furnace.val := byteOf_toNat (e.furnace.isLt.trans (by decide))
  have hg (b : List Byte) : beAt (toBE 2 e.maxGobs ++ b) 0 2 = e.maxGobs := beAt_toBE_append (Nat.lt_succ_of_le hgobs') b
  have hm (b : List Byte) : beAt (toBE 2 e.maxGobs ++ (toBE 2 e.minMass ++ b)) 2 2 = e.minMass := by
    rw [beAt_append (length_toBE ..).le, length_toBE]
    exact beAt_toBE_append (Nat.lt_succ_of_le hmin') b
  have hw (p : Fin 4) : natAt (lineImage e) (6 + p.val) = e.weights.get p := by
    have hhead : (flagByte e.enabled :: byteOf e.furnace.val :: (toBE 2 e.maxGobs ++ toBE 2 e.minMass)).length = 6 := by
      simp
    have hsplit : lineImage e = (flagByte e.enabled :: byteOf e.furnace.val :: (toBE 2 e.maxGobs ++ toBE 2 e.minMass)) ++
        e.weights.list.map byteOf := by simp [lineImage]
    rw [hsplit, natAt_append (by rw [hhead]; omega), hhead, Nat.add_sub_cancel_left]
    exact natAt_map_byteOf e.weights p (hweights p)
  have hweights' : (Tab.ofFn fun p : Fin 4 => natAt (lineImage e) (6 + p.val)) = e.weights := by
    ext1 p
    rw [Tab.get_ofFn, hw]
  rw [lineOfImage, hweights']
  simp only [lineImage, List.cons_append, List.nil_append, List.append_assoc, natAt_cons_zero, natAt_cons_succ,
    beAt_cons_succ, hf, hg, hm, flagField_flagByte, toIdx_val, codeField_some, rangeField_of_mem ⟨hgobs, hgobs'⟩,
    rangeField_of_mem ⟨hmin, hmin'⟩, Except.bind]

/-- A stretch of a table written entry after entry is one entry. -/
theorem slice_flatMap {α : Type} {f : α → List Byte} {n : Nat} (l : List α) (hf : ∀ x ∈ l, (f x).length = n) {i : Nat}
    (hi : i < l.length) : slice (l.flatMap f) (n * i) n = f l[i] := by
  induction l generalizing i with
  | nil => cases hi
  | cons x l ih =>
    have hx : (f x).length = n := hf x (List.mem_cons_self ..)
    cases i with
    | zero => simp [slice, ← hx]
    | succ i =>
      have hrest := ih (fun y hy => hf y (List.mem_cons_of_mem _ hy)) (Nat.lt_of_succ_lt_succ hi)
      rw [List.flatMap_cons, slice, Nat.mul_succ, Nat.add_comm, ← List.drop_drop, List.drop_left' hx]
      exact hrest

theorem curveOfImage_image {e : CurveEntry} (h : e.Fits) : curveOfImage (curveImage e) = e := by
  have hgain (s : Fin 16) : beAt (curveImage e) (2 * s.val) 2 = e.gains.get s := by
    have hs : s.val < e.gains.list.length := by rw [e.gains.len]; exact s.isLt
    have hslice := slice_flatMap e.gains.list (f := toBE 2) (fun _ _ => length_toBE ..) hs
    rw [slice] at hslice
    rw [beAt, curveImage, hslice, beNat_toBE]
    exact Nat.mod_eq_of_lt (Nat.lt_succ_of_le (h s))
  have hgains : (curveOfImage (curveImage e)).gains = e.gains := by
    ext1 s
    rw [curveOfImage, Tab.get_ofFn, hgain]
  exact congrArg CurveEntry.mk hgains

end RoundTrip

/-! ## The body a save writes (13.7) -/

section Body
variable {m : PlantMap} {lags : Tab 4 Nat} {a b : List Byte} {k n : Nat}

theorem slice_append_left (h : k + n ≤ a.length) (b : List Byte) : slice (a ++ b) k n = slice a k n := by
  rw [slice, slice, List.drop_append_of_le_length (by omega), List.take_append_of_le_length (by simp; omega)]

theorem slice_append_right {base : Nat} (h : a.length = base) (b : List Byte) (k n : Nat) :
    slice (a ++ b) (base + k) n = slice b k n := by
  rw [slice, ← List.drop_drop, List.drop_left' h, slice]

theorem take_padTo (n : Nat) (b : List Byte) : (padTo n b).take b.length = b := List.take_left' rfl

theorem length_tableBytes {n size : Nat} {α : Type} {f : α → List Byte} (t : Tab n α) (hf : ∀ x, (f x).length = size) :
    (t.list.flatMap f).length = size * n := by
  simp [List.length_flatMap, hf, t.len, Nat.mul_comm]

theorem slice_table {n size : Nat} {α : Type} {f : α → List Byte} (t : Tab n α) (hf : ∀ x, (f x).length = size)
    (i : Fin n) : slice (t.list.flatMap f) (size * i.val) size = f (t.get i) :=
  slice_flatMap t.list (fun x _ => hf x) (by rw [t.len]; exact i.isLt)

/-! The lengths of the parts of a body. -/

theorem length_globalBytes (g : GlobalEntry) : (padTo 8 (globalImage g)).length = 8 := by simp [length_globalImage]
theorem length_linkBytes (e : LinkEntry) : (padTo 4 (linkImage e)).length = 4 := by simp [length_linkImage]
theorem length_pointBytes (e : PointEntry) : (padTo 12 (pointImage e)).length = 12 := by simp [length_pointImage]
theorem length_furnaceBytes (e : FurnaceEntry) : (padTo 4 (furnaceImage e)).length = 4 := by simp [length_furnaceImage]
theorem length_lineBytes (e : LineEntry) : (padTo 12 (lineImage e)).length = 12 := by simp [length_lineImage]
theorem length_poolBytes (e : PoolEntry) : (padTo 4 (poolImage e)).length = 4 := by simp [length_poolImage]
theorem length_curveBytes (e : CurveEntry) : (padTo 32 (curveImage e)).length = 32 := by simp [length_curveImage]

/-- The length of each table of a body (13.7). -/
structure BodyLengths (m : PlantMap) : Prop where
  global : (padTo 8 (globalImage m.global)).length = 8
  links : (m.links.list.flatMap fun e => padTo 4 (linkImage e)).length = 32
  points : (m.points.list.flatMap fun e => padTo 12 (pointImage e)).length = 1536
  furnaces : (m.furnaces.list.flatMap fun e => padTo 4 (furnaceImage e)).length = 16
  lines : (m.lines.list.flatMap fun e => padTo 12 (lineImage e)).length = 144
  pools : (m.pools.list.flatMap fun e => padTo 4 (poolImage e)).length = 16
  curves : (m.curves.list.flatMap fun e => padTo 32 (curveImage e)).length = 256

theorem bodyLengths (m : PlantMap) : BodyLengths m where
  global := length_globalBytes m.global
  links := length_tableBytes m.links length_linkBytes
  points := length_tableBytes m.points length_pointBytes
  furnaces := length_tableBytes m.furnaces length_furnaceBytes
  lines := length_tableBytes m.lines length_lineBytes
  pools := length_tableBytes m.pools length_poolBytes
  curves := length_tableBytes m.curves length_curveBytes

theorem length_bodyBytes (m : PlantMap) (lags : Tab 4 Nat) : (bodyBytes m lags).length = 2012 := by
  obtain ⟨hglobal, hlinks, hpoints, hfurnaces, hlines, hpools, hcurves⟩ := bodyLengths m
  simp only [bodyBytes, List.length_append, hglobal, hlinks, hpoints, hfurnaces, hlines, hpools, hcurves,
    List.length_map, lags.len]

theorem slice_body_global : slice (bodyBytes m lags) 0 8 = padTo 8 (globalImage m.global) := by
  have hglobal := length_globalBytes m.global
  simp only [bodyBytes, List.append_assoc]
  rw [slice_append_left hglobal.ge]
  exact List.take_of_length_le hglobal.le

theorem slice_body_link (i : Fin 8) : slice (bodyBytes m lags) (8 + 4 * i.val) 4 = padTo 4 (linkImage (m.links.get i)) := by
  obtain ⟨hglobal, hlinks, hpoints, hfurnaces, hlines, hpools, hcurves⟩ := bodyLengths m
  simp only [bodyBytes, List.append_assoc]
  rw [slice_append_right hglobal, slice_append_left (by omega)]
  exact slice_table m.links length_linkBytes i

theorem slice_body_point (i : Fin 128) :
    slice (bodyBytes m lags) (40 + 12 * i.val) 12 = padTo 12 (pointImage (m.points.get i)) := by
  obtain ⟨hglobal, hlinks, hpoints, hfurnaces, hlines, hpools, hcurves⟩ := bodyLengths m
  rw [bodyBytes]
  iterate 5 rw [slice_append_left (by simp only [List.length_append]; omega)]
  rw [slice_append_right (by simp only [List.length_append]; omega)]
  exact slice_table m.points length_pointBytes i

theorem slice_body_furnace (i : Fin 4) :
    slice (bodyBytes m lags) (1576 + 4 * i.val) 4 = padTo 4 (furnaceImage (m.furnaces.get i)) := by
  obtain ⟨hglobal, hlinks, hpoints, hfurnaces, hlines, hpools, hcurves⟩ := bodyLengths m
  rw [bodyBytes]
  iterate 4 rw [slice_append_left (by simp only [List.length_append]; omega)]
  rw [slice_append_right (by simp only [List.length_append]; omega)]
  exact slice_table m.furnaces length_furnaceBytes i

theorem slice_body_line (i : Fin 12) :
    slice (bodyBytes m lags) (1592 + 12 * i.val) 12 = padTo 12 (lineImage (m.lines.get i)) := by
  obtain ⟨hglobal, hlinks, hpoints, hfurnaces, hlines, hpools, hcurves⟩ := bodyLengths m
  rw [bodyBytes]
  iterate 3 rw [slice_append_left (by simp only [List.length_append]; omega)]
  rw [slice_append_right (by simp only [List.length_append]; omega)]
  exact slice_table m.lines length_lineBytes i

theorem slice_body_pool (i : Fin 4) :
    slice (bodyBytes m lags) (1736 + 4 * i.val) 4 = padTo 4 (poolImage (m.pools.get i)) := by
  obtain ⟨hglobal, hlinks, hpoints, hfurnaces, hlines, hpools, hcurves⟩ := bodyLengths m
  rw [bodyBytes]
  iterate 2 rw [slice_append_left (by simp only [List.length_append]; omega)]
  rw [slice_append_right (by simp only [List.length_append]; omega)]
  exact slice_table m.pools length_poolBytes i

theorem slice_body_curve (i : Fin 8) :
    slice (bodyBytes m lags) (1752 + 32 * i.val) 32 = padTo 32 (curveImage (m.curves.get i)) := by
  obtain ⟨hglobal, hlinks, hpoints, hfurnaces, hlines, hpools, hcurves⟩ := bodyLengths m
  rw [bodyBytes]
  rw [slice_append_left (by simp only [List.length_append]; omega)]
  rw [slice_append_right (by simp only [List.length_append]; omega)]
  exact slice_table m.curves length_curveBytes i

/-- An entry of the body a save writes is read back. -/
theorem bodyEntry_of_slice {α : Type} {read : List Byte → Except Nat α} {image : List Byte} {base size i j : Nat} {x : α}
    (hslice : slice b (base + size * i) size = padTo size image) (hread : ∀ b, read (b.take j) = read b)
    (hlen : image.length = j) (h : read image = .ok x) : bodyEntry read b base size i = some x := by
  rw [slice] at hslice
  rw [bodyEntry_eq_some_iff, hslice, ← hread, ← hlen, take_padTo, h]

/-- The map a save writes is the map of its body (13.7). -/
theorem mapOfBody_bodyBytes (h : m.inRange) (lags : Tab 4 Nat) : mapOfBody (bodyBytes m lags) = some m := by
  obtain ⟨hglobal, hlinks, hpoints, hfurnaces, hlines, hcurves⟩ := PlantMap.inRange_iff.mp h
  refine mapOfBody_eq_some_iff.mpr ⟨?_, fun i => ?_, fun i => ?_, fun i => ?_, fun i => ?_, fun i => ?_, ?_⟩
  · exact bodyEntry_of_slice slice_body_global globalOfImage_take (length_globalImage _) (globalOfImage_image hglobal)
  · exact bodyEntry_of_slice (slice_body_link i) linkOfImage_take (length_linkImage _) (linkOfImage_image (hlinks i))
  · exact bodyEntry_of_slice (slice_body_point i) pointOfImage_take (length_pointImage _) (pointOfImage_image (hpoints i))
  · exact bodyEntry_of_slice (slice_body_furnace i) furnaceOfImage_take (length_furnaceImage _)
      (furnaceOfImage_image (hfurnaces i))
  · exact bodyEntry_of_slice (slice_body_line i) lineOfImage_take (length_lineImage _) (lineOfImage_image (hlines i))
  · exact bodyEntry_of_slice (slice_body_pool i) poolOfImage_take (length_poolImage _) (poolOfImage_image _)
  · ext1 i
    have hslice := slice_body_curve (m := m) (lags := lags) i
    rw [slice] at hslice
    rw [Tab.get_ofFn, hslice, ← curveOfImage_take, ← length_curveImage (m.curves.get i), take_padTo,
      curveOfImage_image (hcurves i)]

theorem lagsOfBody_bodyBytes (h : ∀ f, lags.get f ≤ 63) (m : PlantMap) : lagsOfBody (bodyBytes m lags) = some lags := by
  obtain ⟨hglobal, hlinks, hpoints, hfurnaces, hlines, hpools, hcurves⟩ := bodyLengths m
  refine lagsOfBody_eq_some_iff.mpr ⟨fun f => ?_, h⟩
  rw [bodyBytes, natAt_append (by simp only [List.length_append]; omega)]
  simp only [List.length_append, hglobal, hlinks, hpoints, hfurnaces, hlines, hpools, hcurves, Nat.reduceAdd,
    Nat.add_sub_cancel_left]
  exact (natAt_map_byteOf lags f ((h f).trans (by decide))).symm

/-! ### The header -/

theorem length_headerBytes (b : List Byte) : (headerBytes b).length = 12 := by simp [headerBytes]

theorem checkWord_lt (b : List Byte) : checkWord b < 4294967296 := by
  unfold checkWord
  split
  · exact Nat.mod_lt _ (by decide)
  · decide

theorem length_imageBytes (m : PlantMap) (lags : Tab 4 Nat) : (imageBytes m lags).length = 4096 := by
  simp [imageBytes, length_headerBytes, length_bodyBytes, Config.imageSize]

/-- The image is its header, its body and padding. -/
theorem imageBytes_eq (m : PlantMap) (lags : Tab 4 Nat) :
    ∃ rest, imageBytes m lags = headerBytes (bodyBytes m lags) ++ (bodyBytes m lags ++ rest) :=
  ⟨_, List.append_assoc ..⟩

theorem slice_header (hk : k + n ≤ 12) (m : PlantMap) (lags : Tab 4 Nat) :
    slice (imageBytes m lags) k n = slice (headerBytes (bodyBytes m lags)) k n := by
  obtain ⟨rest, h⟩ := imageBytes_eq m lags
  rw [h, slice_append_left (by rw [length_headerBytes]; exact hk)]

theorem slice_imageBody (m : PlantMap) (lags : Tab 4 Nat) :
    slice (imageBytes m lags) 12 2012 = bodyBytes m lags := by
  obtain ⟨rest, h⟩ := imageBytes_eq m lags
  have hbody := length_bodyBytes m lags
  rw [h, ← Nat.add_zero 12, slice_append_right (length_headerBytes _), slice_append_left hbody.ge]
  exact List.take_of_length_le hbody.le

end Body

/-! ## The image area after a whole save (R180) -/

section Saved
variable {st : Store} {img : List Host.Cell} {m : PlantMap} {lags : Tab 4 Nat}

/-- After `j` bytes of a save they stand in the area. -/
theorem Store.writeByte_iterate (hop : st.op = .save m lags 0) {j : Nat} (hj : j ≤ 4096) :
    (Store.writeByte^[j] st).op = .save m lags j ∧
      ∀ k, k < j → Image.read (Store.writeByte^[j] st).image k = (imageBytes m lags).getD k 0 := by
  induction j with
  | zero => exact ⟨hop, nofun⟩
  | succ j ih =>
    obtain ⟨hop', hread⟩ := ih (Nat.le_of_succ_le hj)
    rw [Function.iterate_succ_apply', Store.writeByte_of_save hop' hj]
    refine ⟨rfl, fun k hk => ?_⟩
    by_cases hkj : k = j
    · rw [hkj]
      exact Image.read_write_self ..
    · exact (Image.read_write_ne _ _ hkj).trans (hread k (by omega))

/-- A stretch of an area that holds an image is a stretch of the image. -/
theorem imageBytes_of_read (h : ∀ k, k < 4096 → Image.read img k = (imageBytes m lags).getD k 0) {a n : Nat}
    (han : a + n ≤ 4096) : Image.bytes img a n = slice (imageBytes m lags) a n := by
  have hlen := length_imageBytes m lags
  refine List.ext_getElem (by rw [length_imageBytesAt, length_slice (by omega)]) fun k hk hk' => ?_
  rw [length_imageBytesAt] at hk
  simp only [Image.bytes, List.getElem_map, List.getElem_range, slice, List.getElem_take, List.getElem_drop]
  rw [h (a + k) (by omega), List.getD_eq_getElem]

theorem judgeImage_of_bytes (htag : beNat (Image.bytes img 0 2) = imageTag)
    (hversion : beNat (Image.bytes img 2 2) = imageVersion) (hlength : beNat (Image.bytes img 4 4) = bodyLength)
    (hcheck : beNat (Image.bytes img 8 4) = checkWord (Image.bytes img 12 bodyLength)) :
    judgeImage img = judgeBody (Image.bytes img 12 bodyLength) :=
  (if_neg (not_not.mpr htag)).trans ((if_neg (not_not.mpr hversion)).trans ((if_neg (not_not.mpr hlength)).trans
    (if_neg (not_not.mpr hcheck))))

theorem judgeImage_of_read (hrange : m.inRange) (hcheck : mapCheck m = none) (hlags : ∀ f, lags.get f ≤ 63)
    (h : ∀ k, k < 4096 → Image.read img k = (imageBytes m lags).getD k 0) : judgeImage img = .good m lags := by
  have hbody : Image.bytes img 12 bodyLength = bodyBytes m lags :=
    (imageBytes_of_read h (by decide)).trans (slice_imageBody m lags)
  have header {k n : Nat} (hk : k + n ≤ 12) : beNat (Image.bytes img k n) = beAt (headerBytes (bodyBytes m lags)) k n := by
    rw [imageBytes_of_read h (by omega), slice_header hk]
    rfl
  have hbytes : headerBytes (bodyBytes m lags) = toBE 2 imageTag ++ (toBE 2 imageVersion ++ (toBE 4 bodyLength ++
      toBE 4 (checkWord (bodyBytes m lags)))) := by simp only [headerBytes, List.append_assoc]
  rw [judgeImage_of_bytes, hbody]
  · exact judgeBody_of_good (mapOfBody_bodyBytes hrange lags) (lagsOfBody_bodyBytes hlags m) hcheck
  · rw [header (by decide), hbytes]
    exact beAt_toBE_append (by decide) _
  · rw [header (by decide), hbytes, beAt_append (by simp), length_toBE]
    exact beAt_toBE_append (by decide) _
  · rw [header (by decide), hbytes, beAt_append (by simp), length_toBE, beAt_append (by simp), length_toBE]
    exact beAt_toBE_append (by decide) _
  · rw [header (by decide), hbytes, beAt_append (by simp), length_toBE, beAt_append (by simp), length_toBE,
      beAt_append (by simp), length_toBE, hbody]
    exact beAt_toBE_of_lt (checkWord_lt _)

end Saved

/-- Settles O37: the bytes of the area, and the judgement they give. -/
theorem savedImageIsJudgedGood : Obligations.SavedImageIsJudgedGood := by
  intro m lags st hrange hcheck hlags hop
  obtain ⟨hop', hread⟩ := Store.writeByte_iterate hop (le_refl 4096)
  exact ⟨Store.saveWritten_iff.mpr ⟨m, lags, 4096, hop', le_refl _⟩, hread, judgeImage_of_read hrange hcheck hlags hread⟩

end Sys2Proof.Machine
end

section
/-! PROOFS. The residence queues, the splits and the totals of a computation (R104 to R108, R116 to R125, R132 to R137) (O45, O47,
O48, O50). -/

namespace Sys2Proof.Machine

/-! ## The residence queue stage (R104 to R108) -/

section QueueEffects
variable {n : BitVec 32} {st : FurnaceState} {direct : Kj} {q : Quality} {x : Furnace}

theorem queueEffect_saturated_iff : (queueEffect n st direct q x).saturated = true ↔
    st = .melt ∧ ∃ c, 1099511627775 < direct.get c := by
  cases st with
  | melt =>
    refine (Kj.above_eq_true_iff (m := Config.recordMax)).trans ?_
    rw [Config.recordMax, eq_self_iff_true, true_and]
  | hold | heatup => simp [queueEffect]

/-- Every record stays or leaves whole (R105, R106). -/
theorem queueEffect_melt_append (n : BitVec 32) (direct : Kj) (q : Quality) (x : Furnace) :
    (queueEffect n .melt direct q x).released ++ (queueEffect n .melt direct q x).queue =
      x.queue ++ [newRecord n direct q] := List.take_append_drop ..

theorem length_queueEffect_melt (n : BitVec 32) (direct : Kj) (q : Quality) (x : Furnace) :
    (queueEffect n .melt direct q x).queue.length = min (x.queue.length + 1) x.lag := by
  simp only [queueEffect, releaseCount, List.length_drop, List.length_append, List.length_singleton]
  omega

theorem queueEffect_of_ne_melt (h : st ≠ .melt) :
    (queueEffect n st direct q x).queue = x.queue ∧ (queueEffect n st direct q x).released = [] ∧
      (queueEffect n st direct q x).hold = (if st = .hold then direct else .zero) ∧
      (queueEffect n st direct q x).heatup = (if st = .heatup then direct else .zero) := by
  cases st with
  | melt => exact absurd rfl h
  | hold | heatup => exact ⟨rfl, rfl, rfl, rfl⟩

end QueueEffects

section QueueStage
variable {s : State} {i : Fin 2} {f : Fin 4}

/-- What the stage does at an enabled furnace. -/
def State.effectAt (i : Fin 2) (s : State) (f : Fin 4) : QueueEffect :=
  queueEffect (s.ctrl.sets.get i).interval (s.engine.furnaceStates.get f) (s.engine.acc.furnaceDirect.get f)
    (s.engine.acc.furnaceQuality.get f) (s.furnaces.get f)

theorem State.queueEffectAt_of_enabled (h : (s.plant.active.furnaces.get f).enabled = true) :
    s.queueEffectAt i f = some (s.effectAt i f) := if_pos h

theorem State.queueEffectAt_of_disabled (h : (s.plant.active.furnaces.get f).enabled = false) :
    s.queueEffectAt i f = none := if_neg (Bool.eq_false_iff.mp h)

theorem State.queueStage_furnace_of_enabled (h : (s.plant.active.furnaces.get f).enabled = true) :
    (s.queueStage i).furnaces.get f = { s.furnaces.get f with queue := (s.effectAt i f).queue } := by
  simp only [State.queueStage, Tab.get_mapIdx, Tab.get_ofFn, State.queueEffectAt_of_enabled h]

theorem State.queueStage_furnace_of_disabled (h : (s.plant.active.furnaces.get f).enabled = false) :
    (s.queueStage i).furnaces.get f = s.furnaces.get f := by
  simp only [State.queueStage, Tab.get_mapIdx, Tab.get_ofFn, State.queueEffectAt_of_disabled h]

theorem State.queueStage_released_of_enabled (h : (s.plant.active.furnaces.get f).enabled = true) :
    (s.queueStage i).engine.released.get f =
      ⟨queueQuality (s.effectAt i f).released, (s.effectAt i f).released.length⟩ := by
  simp only [State.queueStage, Tab.get_ofFn, State.queueEffectAt_of_enabled h]

theorem State.queueStage_released_of_disabled (h : (s.plant.active.furnaces.get f).enabled = false) :
    (s.queueStage i).engine.released.get f = ⟨.empty, 0⟩ := by
  simp only [State.queueStage, Tab.get_ofFn, State.queueEffectAt_of_disabled h]

/-- The entry the stage writes at an enabled furnace (R104). -/
def State.furnaceEntryAt (i : Fin 2) (s : State) (f : Fin 4) : FurnaceResult :=
  furnaceResult (s.plant.active.furnaces.get f) (s.engine.furnaceStates.get f) (s.furnaces.get f).lag
    (s.engine.acc.furnaceDirect.get f) (s.effectAt i f)

theorem State.queueStage_entry (i : Fin 2) (s : State) (f : Fin 4) :
    ((s.queueStage i).working.bind fun y => y.furnaces.get f) = s.working.bind fun _ =>
      (s.queueEffectAt i f).map (furnaceResult (s.plant.active.furnaces.get f) (s.engine.furnaceStates.get f)
        (s.furnaces.get f).lag (s.engine.acc.furnaceDirect.get f)) := by
  simp only [State.queueStage, Option.bind_map, Function.comp_def, Tab.get_ofFn]

theorem State.queueStage_entry_of_enabled (h : (s.plant.active.furnaces.get f).enabled = true) :
    ((s.queueStage i).working.bind fun y => y.furnaces.get f) = s.working.map fun _ => s.furnaceEntryAt i f := by
  rw [State.queueStage_entry, State.queueEffectAt_of_enabled h]
  cases s.working <;> rfl

theorem State.queueStage_entry_of_disabled (h : (s.plant.active.furnaces.get f).enabled = false) :
    ((s.queueStage i).working.bind fun y => y.furnaces.get f) = none := by
  rw [State.queueStage_entry, State.queueEffectAt_of_disabled h]
  cases s.working <;> rfl

theorem State.queueStage_saturated_iff : (s.queueStage i).engine.saturated = true ↔
    ∃ f, (s.plant.active.furnaces.get f).enabled = true ∧ s.engine.furnaceStates.get f = .melt ∧
      ∃ c, 1099511627775 < (s.engine.acc.furnaceDirect.get f).get c := by
  refine anyIdx_iff _ |>.trans (exists_congr fun f => ?_)
  rw [Tab.get_ofFn]
  cases h : (s.plant.active.furnaces.get f).enabled with
  | true => simp only [State.queueEffectAt_of_enabled h, true_and, State.effectAt, queueEffect_saturated_iff]
  | false => simp [State.queueEffectAt_of_disabled h]

end QueueStage

/-- Settles O45: what the stage does at each furnace, by its state. -/
theorem queueStagePushesAndReleases : Obligations.QueueStagePushesAndReleases := by
  intro s i hset hphase
  refine ⟨(s.queueStage i).furnaces, (s.queueStage i).engine.saturated, (s.queueStage i).engine.released,
    (s.queueStage i).working, congrArg Host.Outcome.next (State.atStage_of_due _ hset hphase),
    State.queueStage_saturated_iff, fun x hx => ?_, fun f => ?_⟩
  · exact ⟨_, congrArg (Option.map _) hx, rfl, rfl, rfl, rfl, rfl⟩
  intro x direct entry
  refine ⟨fun hdisabled => ?_, fun henabled => ?_⟩
  · exact ⟨State.queueStage_furnace_of_disabled hdisabled, State.queueStage_entry_of_disabled hdisabled,
      State.queueStage_released_of_disabled hdisabled⟩
  · have hentry : entry = s.working.map fun _ => s.furnaceEntryAt i f := State.queueStage_entry_of_enabled henabled
    have hsome {e : FurnaceResult} (he : entry = some e) : e = s.furnaceEntryAt i f := by
      obtain ⟨-, -, h⟩ := Option.map_eq_some_iff.mp (hentry.symm.trans he)
      exact h.symm
    rw [State.queueStage_furnace_of_enabled henabled, State.queueStage_released_of_enabled henabled]
    refine ⟨fun y hy => ?_, rfl, rfl, rfl, fun e he => ?_, fun hmelt => ?_, fun hmelt => ?_⟩
    · obtain ⟨t, ht, -⟩ := Option.map_eq_some_iff.mp hy
      rw [hentry, ht]
      nofun
    · rw [hsome he]
      exact ⟨rfl, rfl, rfl, rfl, rfl, rfl, rfl, rfl, rfl, rfl, rfl⟩
    · have heffect : s.effectAt i f = queueEffect (s.ctrl.sets.get i).interval .melt direct
          (s.engine.acc.furnaceQuality.get f) x := by rw [State.effectAt, hmelt]
      rw [heffect]
      refine ⟨_, _, rfl, fun c => Kj.get_limit .., rfl, ?_, queueEffect_melt_append .., length_queueEffect_melt .., rfl,
        fun e he => ?_⟩
      · exact Bool.or_eq_true_iff.trans (or_congr Iff.rfl Kj.above_eq_true_iff)
      · rw [hsome he, State.furnaceEntryAt, heffect]
        exact ⟨rfl, rfl, rfl⟩
    · obtain ⟨hqueue, hreleased, hhold, hheatup⟩ := queueEffect_of_ne_melt (n := (s.ctrl.sets.get i).interval)
        (direct := direct) (q := s.engine.acc.furnaceQuality.get f) (x := x) hmelt
      refine ⟨hqueue, ?_, fun e he => ?_⟩
      · rw [State.effectAt, hreleased]; rfl
      · rw [hsome he]
        exact ⟨(congrArg queueContent hreleased).trans rfl, hhold, hheatup⟩

/-! ## The furnace split (R116, R119, R120) -/

theorem weightSum_ofFn (g : Fin 12 → Nat) : weightSum (.ofFn g) = ∑ l, g l := by
  simp only [weightSum, sumIdx_eq_sum, Tab.get_ofFn]

/-- Each amount goes whole one way or the other. -/
theorem onlyIf_sharedSum (k : Kj) (w : Tab 12 Nat) :
    Kj.onlyIf (weightSum w != 0) (sharedSum k w) = if weightSum w = 0 then .zero else k := by
  by_cases h : weightSum w = 0
  · simp [h, Kj.onlyIf]
  · simp [h, Kj.onlyIf, sharedSum_eq h]

theorem onlyIf_no_weight (k : Kj) (w : Tab 12 Nat) :
    Kj.onlyIf (weightSum w == 0) k = if weightSum w = 0 then k else .zero := by
  simp [Kj.onlyIf]

theorem FurnaceResult.split_eq (w : Tab 12 Nat) (r : FurnaceResult) : r.split w = { r with
    pull := weightSum w
    attributed := if weightSum w = 0 then .zero else r.released
    noPull := if weightSum w = 0 then r.released else .zero } := by
  rw [FurnaceResult.split, onlyIf_sharedSum, onlyIf_no_weight]

theorem pullWeights_eq (m : PlantMap) (gross : Tab 12 Nat) (f : Fin 4) : pullWeights m gross f =
    .ofFn fun l => if (m.lines.get l).enabled = true ∧ (m.lines.get l).furnace = f then gross.get l else 0 := by
  ext1 l
  simp [pullWeights]

section FurnaceSplit
variable {s : State} {t : ResultTable} {f : Fin 4} {l : Fin 12}

/-- The weights of furnace `f`'s split in the computation in flight. -/
def State.furnaceWeights (s : State) (f : Fin 4) : Tab 12 Nat := pullWeights s.plant.active s.engine.acc.gross f

/-- What the furnace split makes of the working copy. -/
def State.furnaceSplitTable (s : State) (t : ResultTable) : ResultTable :=
  { t with
    furnaces := t.furnaces.mapIdx fun f r => r.map (FurnaceResult.split (s.furnaceWeights f))
    lines := t.lines.mapIdx fun l r =>
      let f := (s.plant.active.lines.get l).furnace
      match t.furnaces.get f with
      | some x => r.map (LineResult.takeFurnaceShare x.released (s.engine.released.get f) (s.furnaceWeights f) l)
      | none => r }

theorem State.furnaceSplitStage_eq (s : State) (i : Fin 2) : s.furnaceSplitStage i =
    { s with engine := { s.engine with phase := .furnaceSplit }, working := s.working.map s.furnaceSplitTable } := rfl

theorem State.furnaceSplitTable_furnace (s : State) (t : ResultTable) (f : Fin 4) :
    (s.furnaceSplitTable t).furnaces.get f = (t.furnaces.get f).map (FurnaceResult.split (s.furnaceWeights f)) :=
  Tab.get_mapIdx ..

theorem State.furnaceSplitTable_line_of_none (h : t.furnaces.get (s.plant.active.lines.get l).furnace = none) :
    (s.furnaceSplitTable t).lines.get l = t.lines.get l := by
  simp only [State.furnaceSplitTable, Tab.get_mapIdx, h]

theorem State.furnaceSplitTable_line_of_some {x : FurnaceResult} (hf : (s.plant.active.lines.get l).furnace = f)
    (h : t.furnaces.get f = some x) :
    (s.furnaceSplitTable t).lines.get l = (t.lines.get l).map
      (LineResult.takeFurnaceShare x.released (s.engine.released.get f) (s.furnaceWeights f) l) := by
  subst hf
  simp only [State.furnaceSplitTable, Tab.get_mapIdx, h]

theorem State.furnaceSplitTable_line_absent (h : t.lines.get l = none) : (s.furnaceSplitTable t).lines.get l = none := by
  cases hf : t.furnaces.get (s.plant.active.lines.get l).furnace with
  | none => rw [State.furnaceSplitTable_line_of_none hf, h]
  | some x => rw [State.furnaceSplitTable_line_of_some rfl hf, h]; rfl

end FurnaceSplit

/-- Settles O47: the split at each furnace and at each line. -/
theorem furnaceSplitAttributesTheRelease : Obligations.FurnaceSplitAttributesTheRelease := by
  intro s i x hset hphase hx m weight
  have hweights (f : Fin 4) : s.furnaceWeights f = .ofFn (weight f) := pullWeights_eq ..
  have hpull (f : Fin 4) : weightSum (s.furnaceWeights f) = ∑ l, weight f l := by rw [hweights, weightSum_ofFn]
  refine ⟨s.furnaceSplitTable x, congrArg Host.Outcome.next ((State.atStage_of_due _ hset hphase).trans ?_), rfl, rfl, rfl,
    rfl, fun f hf => ?_, fun f r hr => ?_, fun l hl => ?_, fun l r q hr hq => ?_⟩
  · rw [State.furnaceSplitStage_eq, hx]; rfl
  · rw [State.furnaceSplitTable_furnace, hf]; rfl
  · rw [State.furnaceSplitTable_furnace, hr, Option.map_some, FurnaceResult.split_eq, hpull]
  · obtain hl | hf := hl
    · rw [State.furnaceSplitTable_line_absent hl, hl]
    · exact State.furnaceSplitTable_line_of_none hf
  · intro f takesPart
    have htakes : ((s.furnaceWeights f).get l != 0 && (s.engine.released.get f).records != 0) = takesPart := by
      rw [hweights, Tab.get_ofFn]
      simp [takesPart, Bool.decide_and, bne, Bool.beq_eq_decide_eq]
    rw [State.furnaceSplitTable_line_of_some rfl hq, hr, Option.map_some, LineResult.takeFurnaceShare, htakes, hweights]
    rfl

/-! ## Flags of quality sets (R85) -/

/-- The five flags of a quality set. -/
def qualityFlags : List (Quality → Bool) :=
  [Quality.estimated, Quality.incomplete, Quality.implausible, Quality.manual, Quality.saturated]

theorem flag_union {flag : Quality → Bool} (h : flag ∈ qualityFlags) (a b : Quality) :
    flag (a.union b) = true ↔ flag a = true ∨ flag b = true := by
  simp only [qualityFlags, List.mem_cons, List.not_mem_nil, or_false] at h
  obtain rfl | rfl | rfl | rfl | rfl := h <;> exact Bool.or_eq_true_iff

theorem flag_empty {flag : Quality → Bool} (h : flag ∈ qualityFlags) : flag .empty = false := by
  simp only [qualityFlags, List.mem_cons, List.not_mem_nil, or_false] at h
  obtain rfl | rfl | rfl | rfl | rfl := h <;> rfl

theorem flag_onlyIf {flag : Quality → Bool} (h : flag ∈ qualityFlags) (b : Bool) (q : Quality) :
    flag (Quality.onlyIf b q) = true ↔ b = true ∧ flag q = true := by
  cases b
  · simp [Quality.onlyIf, flag_empty h]
  · simp [Quality.onlyIf]

theorem Kj.total_ne_zero_iff (k : Kj) : (k.total != 0) = true ↔ ∃ c, k.get c ≠ 0 := by
  simp only [bne_iff_ne, Kj.total]
  constructor
  · intro h
    by_contra hnone
    push Not at hnone
    have hf := hnone .fuel; have he := hnone .elec; have ho := hnone .oxy; have ha := hnone .aux
    simp only [Kj.get] at hf he ho ha
    omega
  · rintro ⟨c, hc⟩
    cases c <;> simp only [Kj.get] at hc <;> omega

/-! ## The pool split (R121, R122) -/

section PoolSplit
variable {s : State} {t : ResultTable} {p : Fin 4} {l : Fin 12}

/-- The weights of pool `p`'s split in the computation in flight. -/
def State.poolWeightsAt (s : State) (p : Fin 4) : Tab 12 Nat :=
  poolWeights s.plant.active s.engine.acc s.engine.lineStates p

/-- What pool `p` gives line `l`. -/
def State.poolPart (s : State) (p : Fin 4) (l : Fin 12) : Kj := shares (s.engine.acc.poolMetered.get p) (s.poolWeightsAt p) l

/-- The entry of pool `p`. -/
def State.poolEntryAt (s : State) (p : Fin 4) : Option PoolResult :=
  if (s.plant.active.pools.get p).enabled then
    some (poolResult (s.plant.active.pools.get p) (s.engine.acc.poolMetered.get p) (s.engine.acc.poolQuality.get p)
      (s.poolWeightsAt p))
  else none

/-- A line entry after pool `p`'s split. -/
def State.afterPool (s : State) (l : Fin 12) (r : LineResult) (p : Fin 4) : LineResult :=
  if (s.plant.active.pools.get p).enabled then r.takePoolShare (s.poolPart p l) (s.engine.acc.poolQuality.get p) else r

/-- A pool's unattributed energy; none for a pool without an entry. -/
def unattributedOf : Option PoolResult → Kj
  | some x => x.unattributed
  | none => .zero

/-- What the pool split makes of the working copy. -/
def State.poolSplitTable (s : State) (t : ResultTable) : ResultTable :=
  { t with
    pools := .ofFn s.poolEntryAt
    lines := t.lines.mapIdx fun l r => (indices 4).foldl (fun r p =>
      if (s.plant.active.pools.get p).enabled then
        r.map (LineResult.takePoolShare (s.poolPart p l) (s.engine.acc.poolQuality.get p))
      else r) r
    plant := { t.plant with
      unattributed := Kj.sum ((indices 4).map fun p => unattributedOf ((Tab.ofFn s.poolEntryAt).get p)) } }

theorem State.poolSplitStage_eq (s : State) (i : Fin 2) : s.poolSplitStage i =
    { s with engine := { s.engine with phase := .poolSplit }, working := s.working.map s.poolSplitTable } := rfl

/-- Folding under an option. -/
theorem foldl_option_map {α β : Type} {f : α → β → α} {g : Option α → β → Option α} (h : ∀ a b, g a b = a.map (f · b))
    (bs : List β) (a : Option α) : bs.foldl g a = a.map fun a => bs.foldl f a := by
  induction bs generalizing a with
  | nil => cases a <;> rfl
  | cons b bs ih => rw [List.foldl_cons, ih, h]; cases a <;> rfl

theorem State.poolSplitTable_pool (s : State) (t : ResultTable) (p : Fin 4) :
    (s.poolSplitTable t).pools.get p = s.poolEntryAt p := Tab.get_ofFn ..

theorem State.poolSplitTable_line (s : State) (t : ResultTable) (l : Fin 12) :
    (s.poolSplitTable t).lines.get l = (t.lines.get l).map fun r => (indices 4).foldl (s.afterPool l) r := by
  refine (Tab.get_mapIdx ..).trans (foldl_option_map (fun a p => ?_) (indices 4) _)
  cases h : (s.plant.active.pools.get p).enabled <;> cases a <;> simp [State.afterPool, h]

theorem State.poolSplitTable_unattributed (s : State) (t : ResultTable) (c : Carrier) :
    (s.poolSplitTable t).plant.unattributed.get c = ∑ p, (unattributedOf (s.poolEntryAt p)).get c := by
  refine (Kj.get_sum ..).trans ((congrArg List.sum (List.map_map ..)).trans ((sumIdx_eq_sum _).trans ?_))
  simp only [Function.comp_def, Tab.get_ofFn]

/-- A line's entry after the pools of a list (R122). -/
theorem State.afterPools_get_poolShare (s : State) (l : Fin 12) (ps : List (Fin 4)) (r : LineResult) (c : Carrier) :
    (ps.foldl (s.afterPool l) r).poolShare.get c = r.poolShare.get c + (ps.map fun p =>
      if (s.plant.active.pools.get p).enabled then (s.poolPart p l).get c else 0).sum := by
  induction ps generalizing r with
  | nil => rfl
  | cons p ps ih =>
    rw [List.foldl_cons, ih, List.map_cons, List.sum_cons, ← Nat.add_assoc]
    congr 1
    cases h : (s.plant.active.pools.get p).enabled <;> simp [State.afterPool, h, LineResult.takePoolShare]

theorem State.afterPools_rest (s : State) (l : Fin 12) (ps : List (Fin 4)) (r : LineResult) :
    ps.foldl (s.afterPool l) r = { r with
      poolShare := (ps.foldl (s.afterPool l) r).poolShare, quality := (ps.foldl (s.afterPool l) r).quality } := by
  induction ps generalizing r with
  | nil => rfl
  | cons p ps ih =>
    rw [List.foldl_cons, ih]
    cases h : (s.plant.active.pools.get p).enabled <;> simp [State.afterPool, h, LineResult.takePoolShare]

theorem State.afterPools_quality (s : State) (l : Fin 12) (ps : List (Fin 4)) (r : LineResult) {flag : Quality → Bool}
    (hflag : flag ∈ qualityFlags) : flag (ps.foldl (s.afterPool l) r).quality = true ↔
      flag r.quality = true ∨ ∃ p ∈ ps, (s.plant.active.pools.get p).enabled = true ∧
        flag (s.engine.acc.poolQuality.get p) = true ∧ ∃ c, (s.poolPart p l).get c ≠ 0 := by
  induction ps generalizing r with
  | nil => simp
  | cons p ps ih =>
    rw [List.foldl_cons, ih, List.exists_mem_cons_iff, ← or_assoc]
    refine or_congr ?_ Iff.rfl
    cases h : (s.plant.active.pools.get p).enabled with
    | true =>
      simp only [State.afterPool, h, if_true, LineResult.takePoolShare, flag_union hflag, flag_onlyIf hflag,
        Kj.total_ne_zero_iff, true_and]
      rw [and_comm]
    | false => simp [State.afterPool, h]

end PoolSplit

/-- Settles O48: each pool's entry, each line's fold over the pools, and the sum over the pools. -/
theorem poolSplitSharesTheMetered : Obligations.PoolSplitSharesTheMetered := by
  intro s i x hset hphase hx m a weight part
  have hweights (p : Fin 4) : s.poolWeightsAt p = .ofFn (weight p) := rfl
  have htotal (p : Fin 4) : weightSum (s.poolWeightsAt p) = ∑ l, weight p l := by rw [hweights, weightSum_ofFn]
  have hpart (p : Fin 4) (l : Fin 12) (c : Carrier) :
      (if (m.pools.get p).enabled then (s.poolPart p l).get c else 0) = part p l c := by
    simp only [part, State.poolPart, shares, Kj.get_ofFn, hweights, a]
  have hentry {p : Fin 4} (h : (m.pools.get p).enabled = true) : s.poolEntryAt p = some
      (if (∑ l, weight p l) = 0 then
        ⟨(m.pools.get p).basis, a.poolMetered.get p, .zero, a.poolMetered.get p, a.poolQuality.get p⟩
      else ⟨(m.pools.get p).basis, a.poolMetered.get p, a.poolMetered.get p, .zero, a.poolQuality.get p⟩) := by
    rw [State.poolEntryAt, if_pos h, poolResult, onlyIf_sharedSum, onlyIf_no_weight, htotal]
    split <;> rfl
  refine ⟨s.poolSplitTable x, congrArg Host.Outcome.next ((State.atStage_of_due _ hset hphase).trans ?_), rfl, rfl, rfl,
    fun q hq => ?_, fun q hq => ?_, fun l hl => ?_, fun l r hr => ?_, rfl, fun c => ?_⟩
  · rw [State.poolSplitStage_eq, hx]; rfl
  · rw [State.poolSplitTable_pool]
    exact if_neg (Bool.eq_false_iff.mp hq)
  · rw [State.poolSplitTable_pool, hentry hq]
  · rw [State.poolSplitTable_line, hl]; rfl
  · refine ⟨(indices 4).foldl (s.afterPool l) r, by rw [State.poolSplitTable_line, hr]; rfl, fun c => ?_,
      s.afterPools_rest l _ r, fun flag hflag => ?_⟩
    · rw [State.afterPools_get_poolShare]
      simp only [m] at hpart
      simp only [hpart]
      exact congrArg _ (sumIdx_eq_sum fun p => part p l c)
    · refine (s.afterPools_quality l _ r hflag).trans (or_congr Iff.rfl (exists_congr fun q => ?_))
      rw [and_iff_right (mem_indices q)]
      refine and_congr_right fun hq => and_congr_right fun _ => exists_congr fun c => ?_
      rw [← hpart, if_pos hq]
  · rw [State.poolSplitTable_unattributed]
    refine Finset.sum_congr rfl fun q _ => ?_
    by_cases hq : (m.pools.get q).enabled = true
    · rw [hentry hq]
      by_cases hzero : (∑ l, weight q l) = 0
      · rw [if_pos hzero, if_pos ⟨hq, hzero⟩]; rfl
      · rw [if_neg hzero, if_neg fun h => hzero h.2]; exact Kj.get_zero c
    · rw [State.poolEntryAt, if_neg hq, if_neg fun h => hq h.1]; exact Kj.get_zero c

/-! ## The totals stage (R123 to R125, R132 to R137) -/

section Totals
variable {minKg : Nat} {a : Accumulators} {e : Engine} {t : ResultTable}

theorem seClamped_eq (e m k : Nat) :
    seClamped e m k = decide (k * 10000 ≤ m ∧ 16777214 < (e * 100000 + m / 2) / m) := by
  rw [Bool.decide_and]
  rfl

theorem ResultTable.totals_line (minKg : Nat) (e : Engine) (t : ResultTable) (l : Fin 12) :
    (t.totals minKg e).lines.get l =
      (t.lines.get l).map (LineResult.complete (e.acc.lineDirect.get l) (e.acc.lineQuality.get l)) := Tab.get_mapIdx ..

theorem ResultTable.totals_furnace (minKg : Nat) (e : Engine) (t : ResultTable) (f : Fin 4) :
    (t.totals minKg e).furnaces.get f =
      (t.furnaces.get f).map (FurnaceResult.complete (e.acc.furnaceQuality.get f) (e.released.get f).quality) :=
  Tab.get_mapIdx ..

/-- Some figure of the interval is clamped exactly when one of a line, of a furnace or of the plant is (R134). -/
theorem ResultTable.clampedAny_iff : t.clampedAny minKg a = true ↔
    (∃ l r, t.lines.get l = some r ∧ r.clamped (a.lineDirect.get l) = true) ∨
    (∃ f r, t.furnaces.get f = some r ∧ r.clamped = true) ∨ seClamped a.plant.total a.plantPacked minKg = true := by
  unfold ResultTable.clampedAny
  rw [Bool.or_eq_true, Bool.or_eq_true, anyIdx_iff, anyIdx_iff, or_assoc]
  refine or_congr (exists_congr fun l => ?_) (or_congr (exists_congr fun f => ?_) Iff.rfl)
  · cases t.lines.get l <;> simp
  · cases t.furnaces.get f <;> simp

end Totals

/-- Settles O50: each entry completed, and the finding. -/
theorem totalsStageCompletesTheEntries : Obligations.TotalsStageCompletesTheEntries := by
  intro s i x hset hphase hx a clamps sum minKg
  have hclamps (e m k : Nat) : seClamped e m k = clamps e m k := seClamped_eq e m k
  refine ⟨x.totals minKg s.engine, congrArg Host.Outcome.next ((State.atStage_of_due _ hset hphase).trans ?_), rfl, rfl,
    fun l hl => ?_, fun f hf => ?_, fun l r hr => ?_, fun f r hr => ?_, ?_, rfl, ?_⟩
  · rw [State.totalsStage, hx]; rfl
  · rw [ResultTable.totals_line, hl]; rfl
  · rw [ResultTable.totals_furnace, hf]; rfl
  · intro total
    rw [ResultTable.totals_line, hr, ← hclamps, ← hclamps]; rfl
  · rw [ResultTable.totals_furnace, hr, ← hclamps, ← hclamps]; rfl
  · rw [← hclamps]; rfl
  · refine Bool.or_eq_true_iff.trans (or_congr Iff.rfl (ResultTable.clampedAny_iff.trans ?_))
    simp only [← hclamps]
    refine or_congr (exists_congr fun l => exists_congr fun r => and_congr_right fun _ => Bool.or_eq_true_iff) ?_
    exact or_congr (exists_congr fun f => exists_congr fun r => and_congr_right fun _ => Bool.or_eq_true_iff) Iff.rfl

end Sys2Proof.Machine
end

section
/-! PROOFS. An interval added to a bank, and a completion (R128, R140, R143, R147, R148) (O51, O52). -/

namespace Sys2Proof.Machine

/-! ## Sums above 48 bits (R148) -/

section Above
variable {t : ResultTable} {b : Bank}

theorem any_above_iff (ks : List Kj) : ks.any (Kj.above Config.bankMax) = true ↔
    ∃ k ∈ ks, ∃ c, 281474976710655 < k.get c := by
  simp only [List.any_eq_true, Kj.above_eq_true_iff, Config.bankMax]

theorem decide_above_iff (n : Nat) : decide (Config.bankMax < n) = true ↔ 281474976710655 < n := decide_eq_true_iff

theorem FurnaceRecord.above_iff {r : FurnaceRecord} : r.above = true ↔
    (∃ c, 281474976710655 < r.metered.get c ∨ 281474976710655 < r.attributed.get c ∨ 281474976710655 < r.noPull.get c ∨
      281474976710655 < r.hold.get c ∨ 281474976710655 < r.heatup.get c) ∨ 281474976710655 < r.pull := by
  simp only [FurnaceRecord.above, Bool.or_eq_true, any_above_iff, decide_above_iff, List.mem_cons, List.not_mem_nil,
    or_false, exists_eq_or_imp, exists_eq_left, exists_or]

theorem LineBankRecord.above_iff {r : LineBankRecord} : r.above = true ↔
    (∃ c, 281474976710655 < r.furnaceShare.get c ∨ 281474976710655 < r.direct.get c ∨
      281474976710655 < r.poolShare.get c) ∨ 281474976710655 < r.grossMass ∨ 281474976710655 < r.packedMass := by
  simp only [LineBankRecord.above, Bool.or_eq_true, any_above_iff, decide_above_iff, List.mem_cons, List.not_mem_nil,
    or_false, exists_eq_or_imp, exists_eq_left, exists_or, or_assoc]

theorem PoolRecord.above_iff {r : PoolRecord} : r.above = true ↔
    ∃ c, 281474976710655 < r.metered.get c ∨ 281474976710655 < r.shared.get c ∨ 281474976710655 < r.unattributed.get c := by
  simp only [PoolRecord.above, any_above_iff, List.mem_cons, List.not_mem_nil, or_false, exists_eq_or_imp,
    exists_eq_left, exists_or]

theorem PlantRecord.above_iff {r : PlantRecord} : r.above = true ↔
    (∃ c, 281474976710655 < r.metered.get c ∨ 281474976710655 < r.monitor.get c ∨
      281474976710655 < r.unattributed.get c) ∨ 281474976710655 < r.grossMass ∨ 281474976710655 < r.packedMass := by
  simp only [PlantRecord.above, Bool.or_eq_true, any_above_iff, decide_above_iff, List.mem_cons, List.not_mem_nil,
    or_false, exists_eq_or_imp, exists_eq_left, exists_or, or_assoc]

theorem Bank.above_iff : b.above = true ↔
    (∃ f, (b.furnaces.get f).above = true) ∨ (∃ l, (b.lines.get l).above = true) ∨ (∃ p, (b.pools.get p).above = true) ∨
      b.plant.above = true := by
  simp only [Bank.above, Bool.or_eq_true, anyIdx_iff, or_assoc]

/-- A record within its bits goes above them only where its entry is present. -/
theorem above_addPresent_iff {α β : Type} {add : α → β → β} {above : β → Bool} {x : Option α} {r : β}
    (hr : above r = false) :
    above (addPresent add x r) = true ↔ ∃ y, x = some y ∧ above (add y r) = true := by
  cases x with
  | none => simp [addPresent, hr]
  | some y => simp [addPresent]

/-- The interval's sum goes above 48 bits exactly when a present entry's or the plant's does. -/
theorem Bank.above_addExact_iff (hb : b.above = false) : (b.addExact t).above = true ↔
    (∃ f x, t.furnaces.get f = some x ∧ ((b.furnaces.get f).addInterval x).above = true) ∨
    (∃ l x, t.lines.get l = some x ∧ ((b.lines.get l).addInterval x).above = true) ∨
    (∃ q x, t.pools.get q = some x ∧ ((b.pools.get q).addInterval x).above = true) ∨
    (b.plant.addInterval t.plant).above = true := by
  obtain ⟨hfurnaces, hlines, hpools, -⟩ := Bank.above_eq_false_iff.mp hb
  rw [Bank.above_iff]
  simp only [Bank.addExact, Tab.get_mapIdx]
  refine or_congr (exists_congr fun f => above_addPresent_iff (hfurnaces f)) (or_congr
    (exists_congr fun l => above_addPresent_iff (hlines l)) (or_congr (exists_congr fun p => above_addPresent_iff (hpools p))
      Iff.rfl))

end Above

/-! ## The records after an interval (R147) -/

section Records
variable {t : ResultTable} {b : Bank} {q : Bool}

theorem Bank.addInterval_furnace (t : ResultTable) (q : Bool) (b : Bank) (f : Fin 4) :
    (b.addInterval t q).furnaces.get f =
      (addPresent FurnaceRecord.addInterval (t.furnaces.get f) (b.furnaces.get f)).limit := by
  simp only [Bank.addInterval, Bank.settle, Bank.addExact, Tab.get_mapIdx]

theorem Bank.addInterval_line (t : ResultTable) (q : Bool) (b : Bank) (l : Fin 12) :
    (b.addInterval t q).lines.get l =
      (addPresent LineBankRecord.addInterval (t.lines.get l) (b.lines.get l)).limit := by
  simp only [Bank.addInterval, Bank.settle, Bank.addExact, Tab.get_mapIdx]

theorem Bank.addInterval_pool (t : ResultTable) (q : Bool) (b : Bank) (p : Fin 4) :
    (b.addInterval t q).pools.get p = (addPresent PoolRecord.addInterval (t.pools.get p) (b.pools.get p)).limit := by
  simp only [Bank.addInterval, Bank.settle, Bank.addExact, Tab.get_mapIdx]

theorem countIf_eq (c : Bool) (n : BitVec 32) : countIf c n = n + if c then 1 else 0 := by
  cases c <;> simp [countIf]

theorem countIf_beq {α : Type} [DecidableEq α] (a b : α) (n : BitVec 32) :
    countIf (a == b) n = n + if a = b then 1 else 0 := by
  rw [countIf_eq]
  simp only [beq_iff_eq]

end Records

/-- Settles O52: each record by whether its entry is present. -/
theorem addingAnIntervalGrowsTheBank : Obligations.AddingAnIntervalGrowsTheBank := by
  intro t queueSaturated b hb b' limit
  have habove := Bank.above_addExact_iff (t := t) hb
  simp only [FurnaceRecord.above_iff, LineBankRecord.above_iff, PoolRecord.above_iff, PlantRecord.above_iff,
    FurnaceRecord.addInterval, LineBankRecord.addInterval, PoolRecord.addInterval, PlantRecord.addInterval,
    Kj.get_add] at habove
  obtain ⟨hfurnaces, hlines, hpools, -⟩ := Bank.above_eq_false_iff.mp hb
  have hadd : b.addSaturates t queueSaturated = true ↔ queueSaturated = true ∨ (b.addExact t).above = true := by
    rw [Bank.addSaturates, Bool.or_eq_true, or_comm]
  have hsat : b'.saturated = (b.saturated || b.addSaturates t queueSaturated) := Bool.or_assoc ..
  refine ⟨rfl, rfl, rfl, rfl, rfl, rfl, Bank.above_addInterval .., hsat, ⟨hadd.trans (or_congr Iff.rfl habove), ?_⟩,
    fun f hf => ?_, fun f x hx => ?_, fun l hl => ?_, fun l x hx => ?_, fun p hp => ?_, fun p x hx c => ?_, fun c => ?_, rfl, rfl⟩
  · rw [hsat, Bool.or_eq_true, hadd, habove]
  · rw [Bank.addInterval_furnace, hf]
    exact FurnaceRecord.limit_of_above_eq_false (hfurnaces f)
  · rw [Bank.addInterval_furnace, hx]
    dsimp only
    refine ⟨fun c => ?_, rfl, rfl, countIf_beq .., countIf_beq .., countIf_beq .., countIf_eq .., countIf_eq .., rfl⟩
    simp [addPresent, FurnaceRecord.limit, FurnaceRecord.addInterval, Config.bankMax, limit]
  · rw [Bank.addInterval_line, hl]
    exact LineBankRecord.limit_of_above_eq_false (hlines l)
  · rw [Bank.addInterval_line, hx]
    dsimp only
    refine ⟨fun c => ?_, rfl, rfl, countIf_beq .., countIf_beq .., countIf_beq .., countIf_beq .., countIf_eq ..,
      countIf_eq .., countIf_eq .., countIf_eq .., countIf_eq ..⟩
    simp [addPresent, LineBankRecord.limit, LineBankRecord.addInterval, Config.bankMax, limit]
  · rw [Bank.addInterval_pool, hp]
    exact PoolRecord.limit_of_above_eq_false (hpools p)
  · rw [Bank.addInterval_pool, hx]
    simp [addPresent, PoolRecord.limit, PoolRecord.addInterval, Config.bankMax, limit]
  · simp [b', Bank.addInterval, Bank.settle, Bank.addExact, PlantRecord.limit, PlantRecord.addInterval, Config.bankMax, limit]

/-! ## A completion (R128) -/

section Completion
variable {s : State} {i j : Fin 2}

/-- The set freed and the engine idle. -/
def State.freed (i : Fin 2) (s : State) : State :=
  { s with engine := .idle, ctrl := { s.ctrl with sets := s.ctrl.sets.set i .free } }

/-- What follows a completion, decided on the state with the set freed. -/
def State.afterFreed (s : State) : State :=
  match s.ctrl.setWith .waiting with
  | some j => s.startComputation j
  | none => if s.ctrl.acc = .stopping ∧ (s.ctrl.setWith .opened).isNone then s.returnToReady else s

theorem State.afterCompletion_eq (s : State) (i : Fin 2) : s.afterCompletion i = (s.freed i).afterFreed := rfl

theorem State.afterCompletion_of_waiting (h : (s.freed i).ctrl.setWith .waiting = some j) :
    s.afterCompletion i = (s.freed i).startComputation j := by
  rw [State.afterCompletion_eq, State.afterFreed, h]

theorem State.afterCompletion_of_stopped (h : (s.freed i).ctrl.setWith .waiting = none) (hacc : s.ctrl.acc = .stopping)
    (hopened : (s.freed i).ctrl.setWith .opened = none) : s.afterCompletion i = (s.freed i).returnToReady := by
  rw [State.afterCompletion_eq, State.afterFreed, h]
  exact if_pos ⟨hacc, by rw [hopened]; rfl⟩

theorem State.afterCompletion_of_rest (h : (s.freed i).ctrl.setWith .waiting = none)
    (hrest : s.ctrl.acc ≠ .stopping ∨ (s.freed i).ctrl.setWith .opened ≠ none) : s.afterCompletion i = s.freed i := by
  rw [State.afterCompletion_eq, State.afterFreed, h]
  refine if_neg fun ⟨hacc, hopened⟩ => ?_
  exact hrest.elim (fun hne => hne hacc) fun hne => hne (Option.isNone_iff_eq_none.mp hopened)

theorem execCompletion_of_banked (hset : s.ctrl.setWith .computing = some i) (hphase : s.engine.phase = .banked) :
    exec .completion s = .next (s.finishCompletion i) :=
  congrArg Host.Outcome.next ((if_pos hphase).trans (State.atStage_of_due _ hset hphase))

theorem execCompletion_of_totalled {x : ResultTable} (hset : s.ctrl.setWith .computing = some i)
    (hphase : s.engine.phase = .totalled) (hx : s.working = some x) :
    exec .completion s = .next ((s.publish (s.ctrl.sets.get i).mark x).finishCompletion i) := by
  have hne : s.engine.phase ≠ .banked := by rw [hphase]; nofun
  refine congrArg Host.Outcome.next ((if_neg hne).trans ((State.atStage_of_due _ hset hphase).trans ?_))
  simp only [State.complete, hx]

/-- The state a READ BANK RECORD finds between the two parts of a marked completion (R155, log entry 32). -/
theorem State.atMoment_beforeSwap_due {x : ResultTable} {c : CloseCause} (hset : s.ctrl.setWith .computing = some i)
    (hphase : s.engine.phase = .totalled) (hx : s.working = some x) (hmark : (s.ctrl.sets.get i).mark = some c) :
    s.atMoment .beforeSwap =
      { s.publish (some c) x with engine := { (s.publish (some c) x).engine with phase := .banked } } := by
  refine (State.atStage_of_due _ hset hphase).trans ?_
  simp only [State.bankInterval, hx, hmark]

end Completion

/-- Settles O51: the publication, then what finishes either form of the completion. -/
theorem completionPublishesAndBanks : Obligations.CompletionPublishesAndBanks := by
  intro s i hset mark answersFrom
  have hanswers {u : State} (hctrl : u.ctrl = s.ctrl) (hexec : exec .completion s = .next (u.finishCompletion i)) :
      answersFrom u := by
    have hmark : (u.ctrl.sets.get i).mark = mark := by rw [hctrl]
    rw [State.finishCompletion, hmark] at hexec
    have hacc : (u.swapIfMarked mark).ctrl.acc = s.ctrl.acc := by rw [State.swapIfMarked_ctrl, hctrl]
    refine ⟨fun j hj => ?_, fun hwaiting hstop hopened => ?_, fun hwaiting hrest => ?_⟩
    · exact hexec.trans (congrArg Host.Outcome.next (State.afterCompletion_of_waiting hj))
    · exact hexec.trans (congrArg Host.Outcome.next
        (State.afterCompletion_of_stopped hwaiting (hacc.trans hstop) hopened))
    · exact hexec.trans (congrArg Host.Outcome.next
        (State.afterCompletion_of_rest hwaiting (hrest.imp_left fun hne => hacc ▸ hne)))
  refine ⟨fun hphase => hanswers rfl (execCompletion_of_banked hset hphase), fun x hphase hx => ?_⟩
  intro b sat done s1 s2 s3 s4 s5 s6
  have hpublish : s.publish mark x = s6 := rfl
  refine ⟨hanswers (hpublish ▸ State.publish_ctrl ..) (hpublish ▸ execCompletion_of_totalled hset hphase hx),
    fun hmark r => ?_⟩
  obtain ⟨c, hc⟩ := Option.ne_none_iff_exists'.mp hmark
  have hmoment := State.atMoment_beforeSwap_due hset hphase hx hc
  rw [← hc, hpublish] at hmoment
  exact congrArg (fun u => Host.Outcome.next (readTransaction .readBankRecord r false
    (fun b s => bankCopy s (natAt b 0) (natAt b 1) (natAt b 2) (byteAt b 3)) u)) hmoment

end Sys2Proof.Machine
end

section
/-! PROOFS. The conversion stage (R91, R96 to R99) (O43). -/

namespace Sys2Proof.Machine

/-! ## A number and a flag gathered along a list -/

section Gathering
variable {α β : Type} {f : β → α → β}

theorem foldl_adds {g : β → Nat} {d : α → Nat} (h : ∀ b a, g (f b a) = g b + d a) (l : List α) (b : β) :
    g (l.foldl f b) = g b + (l.map d).sum := by
  induction l generalizing b with
  | nil => rfl
  | cons a l ih => rw [List.foldl_cons, ih, h, List.map_cons, List.sum_cons, Nat.add_assoc]

theorem foldl_joins {P : β → Prop} {D : α → Prop} (h : ∀ b a, P (f b a) ↔ P b ∨ D a) (l : List α) (b : β) :
    P (l.foldl f b) ↔ P b ∨ ∃ a ∈ l, D a := by
  induction l generalizing b with
  | nil => simp
  | cons a l ih => rw [List.foldl_cons, ih, h, List.exists_mem_cons_iff, or_assoc]

end Gathering

/-! ## What one point adds (R96, R97) -/

section AddPoint
variable (a : Accumulators) (x : PointResult) (c : Carrier)

theorem Kj.get_single (k : Carrier) (n : Nat) : (Kj.single k n).get c = if k = c then n else 0 := by
  simp only [Kj.single, Kj.get_ofFn, eq_comm]

/-- What an entry books of carrier `c` at the targets of `q`. -/
def PointResult.into (c : Carrier) (q : Target → Bool) (x : PointResult) : Nat :=
  if x.carrier = c ∧ q x.target = true then x.kj else 0

theorem PointResult.into_of_target {q : Target → Bool} {x : PointResult} (h : q x.target = true) :
    x.into c q = (Kj.single x.carrier x.kj).get c := by
  simp [PointResult.into, Kj.get_single, h]

theorem PointResult.into_of_not_target {q : Target → Bool} {x : PointResult} (h : q x.target = false) : x.into c q = 0 := by
  simp [PointResult.into, h]

theorem Accumulators.addPoint_furnaceDirect (f : Fin 4) : ((a.addPoint x).furnaceDirect.get f).get c =
    (a.furnaceDirect.get f).get c + x.into c fun t => t == .furnace f := by
  cases h : x.target with
  | furnace g =>
    by_cases hg : g = f <;> simp [Accumulators.addPoint, PointResult.into, Kj.get_single, Tab.get_modify, h, hg]
  | line | pool | monitor => simp [Accumulators.addPoint, PointResult.into, h]

theorem Accumulators.addPoint_lineDirect (l : Fin 12) : ((a.addPoint x).lineDirect.get l).get c =
    (a.lineDirect.get l).get c + x.into c fun t => t == .line l := by
  cases h : x.target with
  | line k =>
    by_cases hk : k = l <;> simp [Accumulators.addPoint, PointResult.into, Kj.get_single, Tab.get_modify, h, hk]
  | furnace | pool | monitor => simp [Accumulators.addPoint, PointResult.into, h]

theorem Accumulators.addPoint_poolMetered (p : Fin 4) : ((a.addPoint x).poolMetered.get p).get c =
    (a.poolMetered.get p).get c + x.into c fun t => t == .pool p := by
  cases h : x.target with
  | pool k =>
    by_cases hk : k = p <;> simp [Accumulators.addPoint, PointResult.into, Kj.get_single, Tab.get_modify, h, hk]
  | furnace | line | monitor => simp [Accumulators.addPoint, PointResult.into, h]

theorem Accumulators.addPoint_monitor : (a.addPoint x).monitor.get c =
    a.monitor.get c + x.into c fun t => t == .monitor := by
  cases h : x.target <;> simp [Accumulators.addPoint, PointResult.into, Kj.get_single, h]

theorem Accumulators.addPoint_plant : (a.addPoint x).plant.get c = a.plant.get c + x.into c fun t => t != .monitor := by
  cases h : x.target <;> simp [Accumulators.addPoint, PointResult.into, Kj.get_single, h]

theorem Accumulators.addPoint_masses : (a.addPoint x).gross = a.gross ∧ (a.addPoint x).packed = a.packed ∧
    (a.addPoint x).plantGross = a.plantGross ∧ (a.addPoint x).plantPacked = a.plantPacked := by
  cases h : x.target <;> simp [Accumulators.addPoint, h]

variable {flag : Quality → Bool} (hflag : flag ∈ qualityFlags)
include hflag

theorem Accumulators.addPoint_furnaceQuality (f : Fin 4) : flag ((a.addPoint x).furnaceQuality.get f) = true ↔
    flag (a.furnaceQuality.get f) = true ∨ (x.target == .furnace f) = true ∧ flag x.quality = true := by
  cases h : x.target with
  | furnace g => by_cases hg : g = f <;> simp [Accumulators.addPoint, Tab.get_modify, flag_union hflag, h, hg]
  | line | pool | monitor => simp [Accumulators.addPoint, h]

theorem Accumulators.addPoint_lineQuality (l : Fin 12) : flag ((a.addPoint x).lineQuality.get l) = true ↔
    flag (a.lineQuality.get l) = true ∨ (x.target == .line l) = true ∧ flag x.quality = true := by
  cases h : x.target with
  | line k => by_cases hk : k = l <;> simp [Accumulators.addPoint, Tab.get_modify, flag_union hflag, h, hk]
  | furnace | pool | monitor => simp [Accumulators.addPoint, h]

theorem Accumulators.addPoint_poolQuality (p : Fin 4) : flag ((a.addPoint x).poolQuality.get p) = true ↔
    flag (a.poolQuality.get p) = true ∨ (x.target == .pool p) = true ∧ flag x.quality = true := by
  cases h : x.target with
  | pool k => by_cases hk : k = p <;> simp [Accumulators.addPoint, Tab.get_modify, flag_union hflag, h, hk]
  | furnace | line | monitor => simp [Accumulators.addPoint, h]

theorem Accumulators.addPoint_monitorQuality : flag (a.addPoint x).monitorQuality = true ↔
    flag a.monitorQuality = true ∨ (x.target == .monitor) = true ∧ flag x.quality = true := by
  cases h : x.target <;> simp [Accumulators.addPoint, flag_union hflag, h]

theorem Accumulators.addPoint_plantQuality : flag (a.addPoint x).plantQuality = true ↔
    flag a.plantQuality = true ∨ (x.target != .monitor) = true ∧ flag x.quality = true := by
  cases h : x.target <;> simp [Accumulators.addPoint, flag_union hflag, h]

end AddPoint

/-! ## What one line adds (R98, R99) -/

section AddLine
variable (a : Accumulators) (k l : Fin 12) (r : LineRecord)

theorem Accumulators.addLine_gross : (a.addLine k r).gross.get l =
    a.gross.get l + if k = l then r.gobs.booked * r.gobMass else 0 := by
  by_cases h : k = l <;> simp [Accumulators.addLine, Tab.get_modify, h]

theorem Accumulators.addLine_packed : (a.addLine k r).packed.get l =
    a.packed.get l + if k = l then r.packed.booked * r.gobMass else 0 := by
  by_cases h : k = l <;> simp [Accumulators.addLine, Tab.get_modify, h]

theorem Accumulators.addLine_lineQuality {flag : Quality → Bool} (hflag : flag ∈ qualityFlags) :
    flag ((a.addLine k r).lineQuality.get l) = true ↔
      flag (a.lineQuality.get l) = true ∨ k = l ∧ flag r.head.quality = true := by
  by_cases h : k = l <;> simp [Accumulators.addLine, Tab.get_modify, flag_union hflag, h]

end AddLine

/-! ## The whole stage -/

section Convert
variable (s : State) (a : Accumulators)

/-- The entry of an enabled point (R97). -/
def State.pointEntry (s : State) (p : Fin 128) : PointResult :=
  pointResult s.plant.active p (s.sources.points.get p) (s.residues.get p)

/-- The accumulators after point `p`. -/
def State.afterPoint (s : State) (a : Accumulators) (p : Fin 128) : Accumulators :=
  if (s.plant.active.points.get p).enabled then a.addPoint (s.pointEntry p) else a

/-- The accumulators after line `l`. -/
def State.afterLine (s : State) (a : Accumulators) (l : Fin 12) : Accumulators :=
  if (s.plant.active.lines.get l).enabled then a.addLine l (s.sources.lines.get l) else a

/-- The accumulators the stage leaves. -/
def State.converted (s : State) : Accumulators :=
  (indices 12).foldl s.afterLine ((indices 128).foldl s.afterPoint s.engine.acc)

theorem pointResults_get (p : Fin 128) : (pointResults s.plant.active s.sources s.residues).get p =
    if (s.plant.active.points.get p).enabled then some (s.pointEntry p) else none := Tab.get_ofFn ..

theorem convertAll_eq_converted : s.engine.acc.convertAll s.plant.active s.sources
    (pointResults s.plant.active s.sources s.residues) = s.converted := by
  unfold Accumulators.convertAll State.converted
  dsimp only
  congr 2
  funext a p
  rw [pointResults_get, State.afterPoint]
  cases (s.plant.active.points.get p).enabled <;> rfl

/-- A number to which each enabled point adds `dp` and each enabled line `dl` grows by their sums. -/
theorem State.converted_adds {g : Accumulators → Nat} {dp : PointResult → Nat} {dl : Fin 12 → Nat}
    (hp : ∀ a x, g (a.addPoint x) = g a + dp x)
    (hl : ∀ a l, g (a.addLine l (s.sources.lines.get l)) = g a + dl l) :
    g s.converted = g s.engine.acc +
      (∑ p, if (s.plant.active.points.get p).enabled then dp (s.pointEntry p) else 0) +
      ∑ l, if (s.plant.active.lines.get l).enabled then dl l else 0 := by
  refine (foldl_adds (fun a l => ?_) ..).trans (congrArg₂ _ ((foldl_adds (fun a p => ?_) ..).trans
    (congrArg _ (sumIdx_eq_sum _))) (sumIdx_eq_sum _))
  · rw [State.afterLine]
    split
    · exact hl a l
    · rfl
  · rw [State.afterPoint]
    split
    · exact hp a _
    · rfl

/-- A flag that each enabled point joins where `Dp` and each enabled line where `Dl`. -/
theorem State.converted_joins {P : Accumulators → Prop} {Dp : PointResult → Prop} {Dl : Fin 12 → Prop}
    (hp : ∀ a x, P (a.addPoint x) ↔ P a ∨ Dp x) (hl : ∀ a l, P (a.addLine l (s.sources.lines.get l)) ↔ P a ∨ Dl l) :
    P s.converted ↔ P s.engine.acc ∨
      (∃ p, (s.plant.active.points.get p).enabled = true ∧ Dp (s.pointEntry p)) ∨
      ∃ l, (s.plant.active.lines.get l).enabled = true ∧ Dl l := by
  refine (foldl_joins (D := fun l => (s.plant.active.lines.get l).enabled = true ∧ Dl l) (fun a l => ?_) ..).trans
    ((or_congr (foldl_joins (D := fun p => (s.plant.active.points.get p).enabled = true ∧ Dp (s.pointEntry p))
      (fun a p => ?_) ..) Iff.rfl).trans ?_)
  · rw [State.afterLine]
    split
    next h => rw [hl, and_iff_right h]
    next h => simp [h]
  · rw [State.afterPoint]
    split
    next h => rw [hp, and_iff_right h]
    next h => simp [h]
  · simp only [mem_indices, true_and, or_assoc]

/-- A number of the energies, to which no line adds. -/
theorem State.converted_energy {g : Accumulators → Nat} {c : Carrier} {q : Target → Bool}
    (hp : ∀ a x, g (a.addPoint x) = g a + x.into c q) (hl : ∀ a l r, g (Accumulators.addLine a l r) = g a) :
    g s.converted = g s.engine.acc +
      ∑ p, if (s.plant.active.points.get p).enabled then (s.pointEntry p).into c q else 0 := by
  have h := s.converted_adds (dl := fun _ => 0) hp fun a l => hl a l _
  simpa only [ite_self, Finset.sum_const_zero, Nat.add_zero] using h

/-- A number of the masses, to which no point adds. -/
theorem State.converted_mass {g : Accumulators → Nat} {dl : Fin 12 → Nat}
    (hp : ∀ a x, g (Accumulators.addPoint a x) = g a)
    (hl : ∀ a l, g (a.addLine l (s.sources.lines.get l)) = g a + dl l) :
    g s.converted = g s.engine.acc + ∑ l, if (s.plant.active.lines.get l).enabled then dl l else 0 := by
  have h := s.converted_adds (dp := fun _ => 0) hp hl
  simpa only [ite_self, Finset.sum_const_zero, Nat.add_zero] using h

/-- A flag that no line joins. -/
theorem State.converted_quality {flag : Quality → Bool} (g : Accumulators → Quality) (q : Target → Bool)
    (hp : ∀ a x, flag (g (a.addPoint x)) = true ↔ flag (g a) = true ∨ q x.target = true ∧ flag x.quality = true)
    (hl : ∀ a l r, g (Accumulators.addLine a l r) = g a) :
    flag (g s.converted) = true ↔ flag (g s.engine.acc) = true ∨ ∃ p, (s.plant.active.points.get p).enabled = true ∧
      q (s.plant.active.points.get p).target = true ∧ flag (s.sources.points.get p).head.quality = true := by
  refine (s.converted_joins (P := fun a => flag (g a) = true) (Dl := fun _ => False) hp
    fun a l => by rw [hl, or_false]).trans (or_congr Iff.rfl ?_)
  simp only [and_false, exists_false, or_false]
  rfl

end Convert

theorem convert_segment (curves : Tab 8 CurveEntry) (e : PointEntry) (c r : Nat) :
    (convert curves e c r).segment = if c = 0 then 0 else segmentOf c e.maxInc := apply_ite ..

/-- What the stage makes of the working copy. -/
def State.convertTable (s : State) (t : ResultTable) : ResultTable :=
  { t with
    points := pointResults s.plant.active s.sources s.residues
    lines := lineResults s.plant.active s.engine s.sources }

theorem State.convertStage_eq (s : State) (i : Fin 2) : s.convertStage i =
    { s with
      residues := (s.convertStage i).residues
      engine := { s.engine with phase := .converted, acc := s.converted }
      working := s.working.map s.convertTable } := by
  rw [← convertAll_eq_converted]
  rfl

theorem State.convertStage_residue (s : State) (i : Fin 2) (p : Fin 128) : (s.convertStage i).residues.get p =
    if (s.plant.active.points.get p).enabled then (s.pointEntry p).residue else s.residues.get p := by
  refine (Tab.get_mapIdx ..).trans ?_
  rw [pointResults_get]
  cases (s.plant.active.points.get p).enabled <;> rfl

theorem lineResults_get (s : State) (l : Fin 12) : (lineResults s.plant.active s.engine s.sources).get l =
    if (s.plant.active.lines.get l).enabled then
      some (lineResult (s.plant.active.lines.get l) (s.engine.lineStates.get l) (s.sources.lines.get l))
    else none := Tab.get_ofFn ..

/-- Settles O43: each sum and each flag is gathered over the points, then over the lines. -/
theorem conversionStageRoutesEachKilojoule : Obligations.ConversionStageRoutesEachKilojoule := by
  intro s i hset hphase m kj into gross packed
  have hinto {c : Carrier} {q : Target → Bool} :
      (∑ p, if (s.plant.active.points.get p).enabled then (s.pointEntry p).into c q else 0) = into c q := by
    refine Finset.sum_congr rfl fun p _ => ?_
    cases h : (s.plant.active.points.get p).enabled with
    | true => simp only [kj, m, h, if_true]; rfl
    | false => simp [kj, m, h]
  have energy (g : Accumulators → Nat) (c : Carrier) (q : Target → Bool)
      (hp : ∀ a x, g (a.addPoint x) = g a + x.into c q) (hl : ∀ a l r, g (Accumulators.addLine a l r) = g a) :
      g s.converted = g s.engine.acc + into c q := (s.converted_energy hp hl).trans (congrArg _ hinto)
  refine ⟨(s.convertStage i).residues, s.converted, s.working.map s.convertTable,
    congrArg Host.Outcome.next ((State.atStage_of_due _ hset hphase).trans (s.convertStage_eq i)), fun p hp => ?_,
    fun p hp => ?_, fun f c => ?_, fun l c => ?_, fun q c => ?_, fun c => ?_, fun c => ?_, fun l => ?_, fun l => ?_, ?_,
    ?_, fun flag hflag => ?_, fun x hx => ?_⟩
  · rw [s.convertStage_residue, if_pos hp]; rfl
  · rw [s.convertStage_residue, hp]; rfl
  · exact energy (fun a => (a.furnaceDirect.get f).get c) c (fun t => t == .furnace f)
      (fun a x => a.addPoint_furnaceDirect x c f) fun _ _ _ => rfl
  · exact energy (fun a => (a.lineDirect.get l).get c) c (fun t => t == .line l)
      (fun a x => a.addPoint_lineDirect x c l) fun _ _ _ => rfl
  · exact energy (fun a => (a.poolMetered.get q).get c) c (fun t => t == .pool q)
      (fun a x => a.addPoint_poolMetered x c q) fun _ _ _ => rfl
  · exact energy (fun a => a.monitor.get c) c (fun t => t == .monitor) (fun a x => a.addPoint_monitor x c) fun _ _ _ => rfl
  · exact energy (fun a => a.plant.get c) c (fun t => t != .monitor) (fun a x => a.addPoint_plant x c) fun _ _ _ => rfl
  · refine (s.converted_mass (g := fun a => a.gross.get l) (fun a x => by rw [(a.addPoint_masses x).1])
      fun a k => a.addLine_gross k l _).trans (congrArg _ ?_)
    exact (Finset.sum_eq_single l (fun k _ hk => by simp [hk]) (by simp)).trans (by simp [gross, m])
  · refine (s.converted_mass (g := fun a => a.packed.get l) (fun a x => by rw [(a.addPoint_masses x).2.1])
      fun a k => a.addLine_packed k l _).trans (congrArg _ ?_)
    exact (Finset.sum_eq_single l (fun k _ hk => by simp [hk]) (by simp)).trans (by simp [packed, m])
  · exact s.converted_mass (g := fun a => a.plantGross) (fun a x => (a.addPoint_masses x).2.2.1) fun a k => rfl
  · exact s.converted_mass (g := fun a => a.plantPacked) (fun a x => (a.addPoint_masses x).2.2.2) fun a k => rfl
  · intro before fromPoint fromLine
    refine ⟨fun f => ?_, fun l => ?_, fun q => ?_, ?_, ?_⟩
    · exact s.converted_quality (fun a => a.furnaceQuality.get f) (fun t => t == .furnace f)
        (fun a x => a.addPoint_furnaceQuality x hflag f) fun _ _ _ => rfl
    · refine (s.converted_joins (P := fun a => flag (a.lineQuality.get l) = true) (fun a x => a.addPoint_lineQuality x hflag l)
        fun a k => a.addLine_lineQuality k l _ hflag).trans (or_congr Iff.rfl (or_congr Iff.rfl ?_))
      refine ⟨?_, fun h => ⟨l, h.1, rfl, h.2⟩⟩
      rintro ⟨k, henabled, rfl, hk⟩
      exact ⟨henabled, hk⟩
    · exact s.converted_quality (fun a => a.poolQuality.get q) (fun t => t == .pool q)
        (fun a x => a.addPoint_poolQuality x hflag q) fun _ _ _ => rfl
    · exact s.converted_quality (fun a => a.monitorQuality) (fun t => t == .monitor)
        (fun a x => a.addPoint_monitorQuality x hflag) fun _ _ _ => rfl
    · exact s.converted_joins (P := fun a => flag a.plantQuality = true) (fun a x => a.addPoint_plantQuality x hflag)
        fun a l => flag_union hflag ..
  · refine ⟨s.convertTable x, congrArg (Option.map _) hx, rfl, rfl, rfl, rfl, fun p hp => ?_, fun p hp => ?_,
      fun l hl => ?_, fun l hl => ?_⟩
    · exact (pointResults_get s p).trans (if_neg (Bool.eq_false_iff.mp hp))
    · refine ⟨_, (pointResults_get s p).trans (if_pos hp), rfl, ?_, ?_, ?_, rfl, rfl, rfl⟩
      · exact convert_segment ..
      · exact (if_pos hp).symm
      · rw [s.convertStage_residue, if_pos hp]
    · exact (lineResults_get s l).trans (if_neg (Bool.eq_false_iff.mp hl))
    · exact ⟨_, (lineResults_get s l).trans (if_pos hl), rfl, rfl, rfl, rfl, (if_pos hl).symm, (if_pos hl).symm, rfl, rfl,
        rfl, rfl, rfl, rfl, rfl, rfl⟩

end Sys2Proof.Machine
end

section
/-! PROOFS. The plant balance of an interval (R130) (O54). -/

namespace Sys2Proof.Machine

open Finset

theorem sum_share_eq (e : Nat) (w : Tab 12 Nat) : ∑ l, share e w l = if weightSum w = 0 then 0 else e := by
  split
  next h => exact Finset.sum_eq_zero fun l _ => if_pos (weightSum_eq_zero_iff.mp h l)
  next h =>
    obtain ⟨l, hl⟩ := not_forall.mp fun hzero => h (weightSum_eq_zero_iff.mpr hzero)
    exact sum_share hl

/-- What a furnace is given is pushed, held or spent on heat-up (R105, R107). -/
theorem queueEffect_spent (n : BitVec 32) (st : FurnaceState) (direct : Kj) (q : Quality) (x : Furnace) (c : Carrier) :
    direct.get c = (queueEffect n st direct q x).hold.get c + (queueEffect n st direct q x).heatup.get c +
      if st = .melt then direct.get c else 0 := by
  cases st <;> simp [queueEffect]

theorem State.furnaceEntryAt_spent (s : State) (i : Fin 2) (f : Fin 4) (c : Carrier) :
    (s.engine.acc.furnaceDirect.get f).get c =
      (s.furnaceEntryAt i f).hold.get c + (s.furnaceEntryAt i f).heatup.get c +
        if s.engine.furnaceStates.get f = .melt then (s.engine.acc.furnaceDirect.get f).get c else 0 :=
  queueEffect_spent ..

/-- A completed entry keeps what the split made of the released energy. -/
theorem FurnaceResult.complete_split_balance (p q : Quality) (w : Tab 12 Nat) (r : FurnaceResult) (c : Carrier) :
    ((r.split w).complete p q).released.get c =
      ((r.split w).complete p q).attributed.get c + ((r.split w).complete p q).noPull.get c := by
  have hreleased : (r.split w).released = r.released := rfl
  simp only [FurnaceResult.complete, FurnaceResult.split_balance, hreleased]

/-! ## The working copy that stages 3 to 7 form -/

section Computed
variable (s : State) (i : Fin 2) (x : ResultTable)

/-- What the residence queue stage makes of the working copy. -/
def State.queueTable (i : Fin 2) (s : State) (t : ResultTable) : ResultTable :=
  { t with furnaces := .ofFn fun f => if (s.plant.active.furnaces.get f).enabled then some (s.furnaceEntryAt i f) else none }

theorem State.queueStage_working : (s.queueStage i).working = s.working.map (s.queueTable i) := by
  have h (f : Fin 4) : ((Tab.ofFn (s.queueEffectAt i)).get f).map (furnaceResult (s.plant.active.furnaces.get f)
      (s.engine.furnaceStates.get f) (s.furnaces.get f).lag (s.engine.acc.furnaceDirect.get f)) =
      if (s.plant.active.furnaces.get f).enabled then some (s.furnaceEntryAt i f) else none := by
    rw [Tab.get_ofFn, State.queueEffectAt]
    split <;> rfl
  simp only [State.queueStage, h]
  rfl

/-- The state after the residence queue stage of a computation that has been reconciled. -/
def State.queued (i : Fin 2) (s : State) : State := (s.convertStage i).queueStage i

/-- The working copy after the pool split of a computation that has been reconciled. -/
def State.splitTable (i : Fin 2) (s : State) (x : ResultTable) : ResultTable :=
  ((s.queued i).furnaceSplitStage i).poolSplitTable
    ((s.queued i).furnaceSplitTable ((s.convertStage i).queueTable i (s.convertTable x)))

/-- The working copy after the totals stage. -/
def State.computedTable (i : Fin 2) (s : State) (x : ResultTable) : ResultTable :=
  (s.splitTable i x).totals s.plant.active.global.plantMin (s.queued i).engine

theorem State.queued_acc : (s.queued i).engine.acc = s.converted := convertAll_eq_converted s

theorem State.totalled_working (h : s.working = some x) :
    (((((s.convertStage i).queueStage i).furnaceSplitStage i).poolSplitStage i).totalsStage i).working =
      some (s.computedTable i x) := by
  have hqueued : (s.queued i).working = some ((s.convertStage i).queueTable i (s.convertTable x)) := by
    rw [State.queued, State.queueStage_working, State.convertStage_eq, h]
    rfl
  have hsplit : (((s.queued i).furnaceSplitStage i).poolSplitStage i).working = some (s.splitTable i x) := by
    rw [State.poolSplitStage_eq, State.furnaceSplitStage_eq, hqueued]
    rfl
  exact congrArg (Option.map _) hsplit

end Computed

/-! ## Its entries -/

section Entries
variable {s : State} {i : Fin 2} {x : ResultTable} {c : Carrier}

/-- What furnace `f` releases in the computation. -/
def State.releasedBy (i : Fin 2) (s : State) (f : Fin 4) : Kj := ((s.convertStage i).furnaceEntryAt i f).released

theorem State.furnaceWeights_queued (f : Fin 4) :
    (s.queued i).furnaceWeights f = pullWeights s.plant.active s.converted.gross f := by
  rw [← s.queued_acc i]
  rfl

theorem State.computed_furnace_absent {f : Fin 4} (h : (s.plant.active.furnaces.get f).enabled = false) :
    (s.computedTable i x).furnaces.get f = none := by
  rw [State.computedTable, ResultTable.totals_furnace]
  refine Option.map_eq_none_iff.mpr ((State.furnaceSplitTable_furnace ..).trans (Option.map_eq_none_iff.mpr ?_))
  exact (Tab.get_ofFn ..).trans (if_neg (Bool.eq_false_iff.mp h))

/-- The entry of an enabled furnace: all that was released is attributed or stands in no-pull, and what was metered is pushed,
held or spent on heat-up (R105, R107, R119, R120). -/
theorem State.computed_furnace {f : Fin 4} (h : (s.plant.active.furnaces.get f).enabled = true) :
    ∃ r, (s.computedTable i x).furnaces.get f = some r ∧ r.released = s.releasedBy i f ∧
      (∀ c, r.attributed.get c = ∑ l, share ((s.releasedBy i f).get c) ((s.queued i).furnaceWeights f) l) ∧
      (∀ c, r.released.get c = r.attributed.get c + r.noPull.get c) ∧
      ∀ c, (s.converted.furnaceDirect.get f).get c =
        r.hold.get c + r.heatup.get c +
          if s.engine.furnaceStates.get f = .melt then (s.converted.furnaceDirect.get f).get c else 0 := by
  have hentry : ((s.convertStage i).queueTable i (s.convertTable x)).furnaces.get f =
      some ((s.convertStage i).furnaceEntryAt i f) := (Tab.get_ofFn ..).trans (if_pos h)
  have hsplit : (s.splitTable i x).furnaces.get f = some
      (((s.convertStage i).furnaceEntryAt i f).split ((s.queued i).furnaceWeights f)) :=
    (State.furnaceSplitTable_furnace ..).trans (congrArg (Option.map _) hentry)
  have hdirect : (s.convertStage i).engine.acc = s.converted := convertAll_eq_converted s
  refine ⟨_, (ResultTable.totals_furnace ..).trans (congrArg (Option.map _) hsplit), rfl, fun c => ?_,
    fun c => FurnaceResult.complete_split_balance .., fun c => ?_⟩
  · rw [sum_share_eq, FurnaceResult.complete, FurnaceResult.split_eq]
    split
    · exact Kj.get_zero c
    · rfl
  · have hspent := (s.convertStage i).furnaceEntryAt_spent i f c
    rw [hdirect] at hspent
    exact hspent

theorem State.computed_line_absent {l : Fin 12} (h : (s.plant.active.lines.get l).enabled = false) :
    (s.computedTable i x).lines.get l = none := by
  have hentry : ((s.convertStage i).queueTable i (s.convertTable x)).lines.get l = none :=
    (lineResults_get s l).trans (if_neg (Bool.eq_false_iff.mp h))
  have hsplit : (s.splitTable i x).lines.get l = none :=
    (State.poolSplitTable_line ..).trans (congrArg (Option.map _) (State.furnaceSplitTable_line_absent hentry))
  exact (ResultTable.totals_line ..).trans (congrArg (Option.map _) hsplit)

/-- What pool `p` gives line `l` of carrier `c`. -/
def State.poolGives (i : Fin 2) (s : State) (p : Fin 4) (l : Fin 12) (c : Carrier) : Nat :=
  if (s.plant.active.pools.get p).enabled then
    share ((s.converted.poolMetered.get p).get c) (((s.queued i).furnaceSplitStage i).poolWeightsAt p) l
  else 0

/-- The entry of an enabled line on an enabled furnace. -/
theorem State.computed_line {l : Fin 12} (h : (s.plant.active.lines.get l).enabled = true) {f : Fin 4}
    (hf : (s.plant.active.lines.get l).furnace = f) (hfurnace : (s.plant.active.furnaces.get f).enabled = true) :
    ∃ r, (s.computedTable i x).lines.get l = some r ∧ r.direct = s.converted.lineDirect.get l ∧
      (∀ c, r.furnaceShare.get c = share ((s.releasedBy i f).get c) ((s.queued i).furnaceWeights f) l) ∧
      ∀ c, r.poolShare.get c = ∑ p, s.poolGives i p l c := by
  have hentry : ((s.convertStage i).queueTable i (s.convertTable x)).furnaces.get f =
      some ((s.convertStage i).furnaceEntryAt i f) := (Tab.get_ofFn ..).trans (if_pos hfurnace)
  have hline : ((s.convertStage i).queueTable i (s.convertTable x)).lines.get l =
      some (lineResult (s.plant.active.lines.get l) (s.engine.lineStates.get l) (s.sources.lines.get l)) :=
    (lineResults_get s l).trans (if_pos h)
  have hfurnaceSplit := (State.furnaceSplitTable_line_of_some (s := s.queued i) hf hentry).trans
    (congrArg (Option.map _) hline)
  have hpoolSplit := (State.poolSplitTable_line ((s.queued i).furnaceSplitStage i) _ l).trans
    (congrArg (Option.map _) hfurnaceSplit)
  refine ⟨_, (ResultTable.totals_line ..).trans (congrArg (Option.map _) hpoolSplit),
    congrArg (fun a : Accumulators => a.lineDirect.get l) (s.queued_acc i), fun c => ?_, fun c => ?_⟩
  · exact (congrArg (fun r : LineResult => r.furnaceShare.get c) (State.afterPools_rest _ l _ _)).trans (Kj.get_ofFn ..)
  · refine (State.afterPools_get_poolShare _ l _ _ c).trans ?_
    have hacc : ((s.queued i).furnaceSplitStage i).engine.acc = s.converted := s.queued_acc i
    simp only [State.poolPart, shares, Kj.get_ofFn, hacc]
    refine (congrArg (· + _) (Kj.get_zero c)).trans ((Nat.zero_add _).trans ?_)
    exact sumIdx_eq_sum fun p => s.poolGives i p l c

/-- The entry of an enabled pool. -/
theorem State.computed_pool {p : Fin 4} :
    (s.computedTable i x).pools.get p = ((s.queued i).furnaceSplitStage i).poolEntryAt p :=
  State.poolSplitTable_pool _ ((s.queued i).furnaceSplitTable ((s.convertStage i).queueTable i (s.convertTable x))) p

end Entries

/-! ## The energy metered -/

section Metered
variable {s : State} {c : Carrier}

/-- What the enabled points book of carrier `c` at the targets of `q`. -/
def State.metered (s : State) (c : Carrier) (q : Target → Bool) : Nat :=
  ∑ p, if (s.plant.active.points.get p).enabled then (s.pointEntry p).into c q else 0

/-- A target other than MONITOR is one furnace, one line or one pool. -/
theorem PointResult.into_by_target (x : PointResult) (c : Carrier) : (x.into c fun t => t != .monitor) =
    (∑ f, x.into c fun t => t == .furnace f) + (∑ l, x.into c fun t => t == .line l) +
      ∑ q, x.into c fun t => t == .pool q := by
  by_cases hc : x.carrier = c
  · cases h : x.target <;> simp [PointResult.into, h, hc]
  · simp [PointResult.into, hc]

theorem State.metered_by_target (s : State) (c : Carrier) : (s.metered c fun t => t != .monitor) =
    (∑ f, s.metered c fun t => t == .furnace f) + (∑ l, s.metered c fun t => t == .line l) +
      ∑ q, s.metered c fun t => t == .pool q := by
  simp only [State.metered]
  rw [sum_comm, sum_comm (s := (univ : Finset (Fin 12))), sum_comm (s := (univ : Finset (Fin 4))) (t := univ),
    ← sum_add_distrib, ← sum_add_distrib]
  refine sum_congr rfl fun p _ => ?_
  split
  · exact PointResult.into_by_target ..
  · simp

/-- Nothing is booked at a target that is not enabled, where the map passes COMMIT's checks (R12 check 2). -/
theorem State.metered_disabled (hcheck : mapCheck s.plant.active = none) {q : Target → Bool}
    (hq : ∀ t, q t = true → targetEnabled s.plant.active t = false) : s.metered c q = 0 := by
  refine sum_eq_zero fun p _ => ?_
  split
  next henabled =>
    refine if_neg fun htarget => ?_
    exact ((mapCheck_eq_none_iff.mp hcheck).1 p).2 ⟨henabled, hq _ htarget.2⟩
  next => rfl

section FromZero
variable (hzero : s.engine.acc = .zero)
include hzero

theorem State.converted_from_zero {q : Target → Bool} (g : Accumulators → Nat)
    (hp : ∀ a x, g (a.addPoint x) = g a + x.into c q) (hl : ∀ a l r, g (Accumulators.addLine a l r) = g a)
    (hg : g .zero = 0) : g s.converted = s.metered c q := by
  rw [s.converted_energy hp hl, hzero, hg, Nat.zero_add]
  rfl

theorem State.converted_furnaceDirect (f : Fin 4) :
    (s.converted.furnaceDirect.get f).get c = s.metered c fun t => t == .furnace f :=
  State.converted_from_zero hzero (fun a => (a.furnaceDirect.get f).get c) (fun a x => a.addPoint_furnaceDirect x c f)
    (fun _ _ _ => rfl) (by simp [Accumulators.zero])

theorem State.converted_lineDirect (l : Fin 12) :
    (s.converted.lineDirect.get l).get c = s.metered c fun t => t == .line l :=
  State.converted_from_zero hzero (fun a => (a.lineDirect.get l).get c) (fun a x => a.addPoint_lineDirect x c l)
    (fun _ _ _ => rfl) (by simp [Accumulators.zero])

theorem State.converted_poolMetered (p : Fin 4) :
    (s.converted.poolMetered.get p).get c = s.metered c fun t => t == .pool p :=
  State.converted_from_zero hzero (fun a => (a.poolMetered.get p).get c) (fun a x => a.addPoint_poolMetered x c p)
    (fun _ _ _ => rfl) (by simp [Accumulators.zero])

theorem State.converted_plant : s.converted.plant.get c = s.metered c fun t => t != .monitor :=
  State.converted_from_zero hzero (fun a => a.plant.get c) (fun a x => a.addPoint_plant x c)
    (fun _ _ _ => rfl) (by simp [Accumulators.zero])

end FromZero

end Metered

/-! ## The balance -/

section Balance
variable {s : State} {i : Fin 2} {x : ResultTable} {c : Carrier}

/-- A line gets nothing of a furnace it is not on (R119). -/
theorem State.furnaceWeights_eq_zero {f : Fin 4} {l : Fin 12}
    (h : ¬ ((s.plant.active.lines.get l).enabled = true ∧ (s.plant.active.lines.get l).furnace = f)) :
    ((s.queued i).furnaceWeights f).get l = 0 := by
  rw [State.furnaceWeights_queued, pullWeights_eq, Tab.get_ofFn, if_neg h]

/-- What furnace `f` gives line `l` of carrier `c`. -/
def State.furnaceGives (i : Fin 2) (s : State) (c : Carrier) (f : Fin 4) (l : Fin 12) : Nat :=
  share ((s.releasedBy i f).get c) ((s.queued i).furnaceWeights f) l

theorem State.furnaceGives_eq_zero {f : Fin 4} {l : Fin 12}
    (h : ¬ ((s.plant.active.lines.get l).enabled = true ∧ (s.plant.active.lines.get l).furnace = f)) :
    s.furnaceGives i c f l = 0 :=
  share_of_weight_zero (State.furnaceWeights_eq_zero h)

theorem State.poolGives_disabled {p : Fin 4} {l : Fin 12} (h : (s.plant.active.lines.get l).enabled = false) :
    s.poolGives i p l c = 0 := by
  rw [State.poolGives]
  split
  · exact share_of_weight_zero ((Tab.get_ofFn ..).trans (if_neg (Bool.eq_false_iff.mp h)))
  · rfl

theorem State.unattributedOf_poolEntryAt {p : Fin 4} (h : (s.plant.active.pools.get p).enabled = true) :
    (unattributedOf (s.poolEntryAt p)).get c =
      if weightSum (s.poolWeightsAt p) = 0 then (s.engine.acc.poolMetered.get p).get c else 0 := by
  rw [State.poolEntryAt, if_pos h, poolResult, unattributedOf, onlyIf_no_weight]
  split <;> simp

theorem State.poolEntryAt_balance {p : Fin 4} {r : PoolResult} (h : s.poolEntryAt p = some r) (c : Carrier) :
    r.metered.get c = r.shared.get c + r.unattributed.get c := by
  obtain ⟨-, hentry⟩ := Option.ite_none_right_eq_some.mp h
  obtain rfl := Option.some.inj hentry
  simp only [poolResult, onlyIf_sharedSum, onlyIf_no_weight]
  split <;> simp

/-- What a pool gives the lines and what stays unattributed is what it was metered (R121, R122). -/
theorem State.poolGives_balance (hcheck : mapCheck s.plant.active = none) (p : Fin 4)
    (hmetered : (s.converted.poolMetered.get p).get c = s.metered c fun t => t == .pool p) :
    (∑ l, s.poolGives i p l c) + (unattributedOf (((s.queued i).furnaceSplitStage i).poolEntryAt p)).get c =
      s.metered c fun t => t == .pool p := by
  have hacc : ((s.queued i).furnaceSplitStage i).engine.acc = s.converted := s.queued_acc i
  by_cases h : (s.plant.active.pools.get p).enabled = true
  · have hentry := State.unattributedOf_poolEntryAt (s := (s.queued i).furnaceSplitStage i) (p := p) (c := c) h
    rw [hentry, hacc, hmetered]
    simp only [State.poolGives, h, if_true, sum_share_eq, hmetered]
    split <;> simp
  · have hentry : ((s.queued i).furnaceSplitStage i).poolEntryAt p = none := if_neg h
    have hnothing : (s.metered c fun t => t == .pool p) = 0 := State.metered_disabled hcheck fun t ht => by
      rw [eq_of_beq ht]
      exact Bool.eq_false_iff.mpr h
    simp only [State.poolGives, h, hentry, hnothing, unattributedOf, Kj.get_zero, Bool.false_eq_true, if_false, sum_const_zero]

/-- What an enabled line takes is what the furnaces, the points and the pools give it; a disabled one takes nothing. -/
theorem State.computed_line_takes (hcheck : mapCheck s.plant.active = none) (l : Fin 12)
    (hdirect : (s.converted.lineDirect.get l).get c = s.metered c fun t => t == .line l) :
    ((s.computedTable i x).lines.get l).elim 0
        (fun r => r.furnaceShare.get c + r.direct.get c + r.poolShare.get c) =
      (∑ f, s.furnaceGives i c f l) + (s.metered c fun t => t == .line l) + ∑ p, s.poolGives i p l c := by
  cases h : (s.plant.active.lines.get l).enabled with
  | false =>
    have hmetered : (s.metered c fun t => t == .line l) = 0 := State.metered_disabled hcheck fun t ht => by
      rw [eq_of_beq ht]
      exact h
    have hfurnaces (f : Fin 4) : s.furnaceGives i c f l = 0 := State.furnaceGives_eq_zero fun ⟨henabled, _⟩ => by
      rw [h] at henabled
      cases henabled
    simp [State.computed_line_absent h, hmetered, hfurnaces, State.poolGives_disabled h]
  | true =>
    have hfurnace : (s.plant.active.furnaces.get (s.plant.active.lines.get l).furnace).enabled = true :=
      Bool.not_eq_false _ ▸ fun hoff => (mapCheck_eq_none_iff.mp hcheck).2.1 l ⟨h, hoff⟩
    obtain ⟨r, hr, hown, hshare, hpool⟩ := State.computed_line (i := i) (x := x) h rfl hfurnace
    have hgives : (∑ f, s.furnaceGives i c f l) = s.furnaceGives i c (s.plant.active.lines.get l).furnace l :=
      sum_eq_single _ (fun f _ hne => State.furnaceGives_eq_zero fun hf => hne hf.2.symm) (by simp)
    rw [hr, Option.elim_some, hshare, hown, hdirect, hpool, hgives]
    rfl

/-- At a furnace, what it releases and what it was given is what it gives the lines, leaves to no-pull, pushes, holds and spends
on heat-up. -/
theorem State.computed_furnace_balance (hcheck : mapCheck s.plant.active = none) (f : Fin 4)
    (hdirect : (s.converted.furnaceDirect.get f).get c = s.metered c fun t => t == .furnace f) :
    ((s.computedTable i x).furnaces.get f).elim 0 (fun r => r.released.get c) +
        (s.metered c fun t => t == .furnace f) =
      (∑ l, s.furnaceGives i c f l) +
        ((s.computedTable i x).furnaces.get f).elim 0 (fun r => r.noPull.get c + r.hold.get c + r.heatup.get c) +
        ((s.computedTable i x).furnaces.get f).elim 0 fun _ =>
          if s.engine.furnaceStates.get f = .melt then (s.converted.furnaceDirect.get f).get c else 0 := by
  cases h : (s.plant.active.furnaces.get f).enabled with
  | false =>
    have hmetered : (s.metered c fun t => t == .furnace f) = 0 := State.metered_disabled hcheck fun t ht => by
      rw [eq_of_beq ht]
      exact h
    have hlines (l : Fin 12) : s.furnaceGives i c f l = 0 := State.furnaceGives_eq_zero fun ⟨henabled, hf⟩ =>
      (mapCheck_eq_none_iff.mp hcheck).2.1 l ⟨henabled, hf ▸ h⟩
    simp [State.computed_furnace_absent h, hmetered, hlines]
  | true =>
    obtain ⟨r, hr, -, hattributed, hreleased, hspent⟩ := State.computed_furnace (i := i) (x := x) h
    have hshares : (∑ l, s.furnaceGives i c f l) = r.attributed.get c := (hattributed c).symm
    have hrelease := hreleased c
    have hgiven := hspent c
    simp only [hr, Option.elim_some, hshares]
    omega

/-- The balance of the whole plant, with an absent entry counting 0. -/
theorem State.computed_balance (hcheck : mapCheck s.plant.active = none) (hzero : s.engine.acc = .zero) :
    (s.computedTable i x).plant.metered.get c +
        (∑ f, ((s.computedTable i x).furnaces.get f).elim 0 fun r => r.released.get c) =
      (∑ l, ((s.computedTable i x).lines.get l).elim 0
        fun r => r.furnaceShare.get c + r.direct.get c + r.poolShare.get c) +
      (∑ f, ((s.computedTable i x).furnaces.get f).elim 0 fun r => r.noPull.get c + r.hold.get c + r.heatup.get c) +
      (s.computedTable i x).plant.unattributed.get c +
      ∑ f, ((s.computedTable i x).furnaces.get f).elim 0 fun _ =>
        if s.engine.furnaceStates.get f = .melt then (s.converted.furnaceDirect.get f).get c else 0 := by
  have hplant : (s.computedTable i x).plant.metered.get c = s.metered c fun t => t != .monitor :=
    (congrArg (fun a : Accumulators => a.plant.get c) (s.queued_acc i)).trans (State.converted_plant hzero)
  have hunattributed : (s.computedTable i x).plant.unattributed.get c =
      ∑ p, (unattributedOf (((s.queued i).furnaceSplitStage i).poolEntryAt p)).get c :=
    State.poolSplitTable_unattributed _
      ((s.queued i).furnaceSplitTable ((s.convertStage i).queueTable i (s.convertTable x))) c
  have hfurnaces := sum_congr rfl fun f (_ : f ∈ univ) =>
    State.computed_furnace_balance (i := i) (x := x) hcheck f (State.converted_furnaceDirect hzero f (c := c))
  have hpools := sum_congr rfl fun p (_ : p ∈ univ) =>
    State.poolGives_balance (i := i) hcheck p (State.converted_poolMetered hzero p (c := c))
  simp only [sum_add_distrib] at hfurnaces hpools
  simp only [hplant, hunattributed, State.metered_by_target,
    State.computed_line_takes hcheck _ (State.converted_lineDirect hzero _), sum_add_distrib]
  rw [sum_comm (s := (univ : Finset (Fin 12))) (f := fun l f => s.furnaceGives i c f l),
    sum_comm (s := (univ : Finset (Fin 12))) (f := fun l p => s.poolGives i p l c)]
  omega

end Balance

/-- Settles O54: every amount is followed from where it was metered or released to where it stands. -/
theorem intervalEnergyBalances : Obligations.IntervalEnergyBalances := by
  intro s i _ _ hzero hworking hcheck t _
  obtain ⟨x, hx⟩ := Option.ne_none_iff_exists'.mp hworking
  have hacc : t.engine.acc = s.converted := s.queued_acc i
  refine ⟨s.computedTable i x, s.totalled_working i x hx, fun c f r hr => ?_, fun c q r hr => ?_, fun c => ?_⟩
  · cases henabled : (s.plant.active.furnaces.get f).enabled with
    | false => rw [State.computed_furnace_absent henabled] at hr; cases hr
    | true =>
      obtain ⟨r', hr', -, -, hbalance, -⟩ := State.computed_furnace (i := i) (x := x) henabled
      obtain rfl := Option.some.inj (hr.symm.trans hr')
      exact hbalance c
  · exact State.poolEntryAt_balance (State.computed_pool.symm.trans hr) c
  intro overLines overFurnaces pushed
  have hlines (g : LineResult → Nat) : overLines g = ∑ l, ((s.computedTable i x).lines.get l).elim 0 g :=
    sum_congr rfl fun l _ => by cases (s.computedTable i x).lines.get l <;> rfl
  have hfurnaces (g : Fin 4 → FurnaceResult → Nat) :
      overFurnaces g = ∑ f, ((s.computedTable i x).furnaces.get f).elim 0 (g f) :=
    sum_congr rfl fun f _ => by cases (s.computedTable i x).furnaces.get f <;> rfl
  simp only [hlines, hfurnaces, pushed, hacc]
  exact State.computed_balance hcheck hzero

end Sys2Proof.Machine
end

section
/-! PROOFS. Words and frames at a receiver (R22 to R31, R33, 13.1) (O32). -/

namespace Sys2Proof.Machine

/-! ## Parity (R22) -/

/-- An exclusive or over a list is whether the number of ones is odd. -/
theorem foldl_xor_toNat {α : Type} (f : α → Bool) (l : List α) (b : Bool) :
    (l.foldl (fun b i => b ^^ f i) b).toNat = (b.toNat + (l.map fun i => (f i).toNat).sum) % 2 := by
  induction l generalizing b with
  | nil => cases b <;> rfl
  | cons a l ih =>
    rw [List.foldl_cons, ih, List.map_cons, List.sum_cons, ← Nat.add_assoc, Nat.add_mod, Nat.add_mod (b.toNat + _)]
    cases b <;> cases f a <;> rfl

theorem parityEven_iff (w : LinkWord) : parityEven w = true ↔
    ((∑ i : Fin 16, (w.data.getLsbD i.val).toNat) + w.s.toNat + w.e.toNat + w.p.toNat) % 2 = 0 := by
  have hsum : ((indices 16).map fun i => (w.data.getLsbD i.val).toNat).sum = ∑ i : Fin 16, (w.data.getLsbD i.val).toNat :=
    sumIdx_eq_sum _
  have hfold := foldl_xor_toNat (fun i : Fin 16 => w.data.getLsbD i.val) (indices 16) (w.s ^^ w.e ^^ w.p)
  have hflags : (w.s ^^ w.e ^^ w.p).toNat % 2 = (w.s.toNat + w.e.toNat + w.p.toNat) % 2 := by
    cases w.s <;> cases w.e <;> cases w.p <;> rfl
  rw [parityEven, Bool.not_eq_true', ← Bool.toNat_eq_zero, hfold, hsum]
  omega

theorem wordGood_iff (w : LinkWord) : wordGood w = true ↔ w.stop = true ∧
    ((∑ i : Fin 16, (w.data.getLsbD i.val).toNat) + w.s.toNat + w.e.toNat + w.p.toNat) % 2 = 0 := by
  rw [wordGood, Bool.and_eq_true, parityEven_iff, and_comm]

theorem wordGood_goodWord (d : BitVec 16) (s e : Bool) : wordGood (goodWord d s e) = true := by
  have hfold (b p : Bool) (l : List (Fin 16)) :
      l.foldl (fun b i => b ^^ d.getLsbD i.val) (b ^^ p) = (l.foldl (fun b i => b ^^ d.getLsbD i.val) b ^^ p) := by
    induction l generalizing b with
    | nil => rfl
    | cons i l ih => rw [List.foldl_cons, List.foldl_cons, Bool.xor_right_comm, ih]
  rw [wordGood, parityEven]
  dsimp only [goodWord]
  rw [hfold, Bool.xor_self]
  rfl

/-! ## Headers (R24, 13.1) -/

/-- A header word of a REPORT that suits the link. -/
def ReportHeader (entry : LinkEntry) (d : BitVec 16) : Prop :=
  d.toNat / 16384 = 1 ∧ 1 ≤ d.toNat / 32 % 32 ∧ d.toNat / 32 % 32 ≤ 16 ∧ d.toNat / 32 % 32 ≤ entry.pointCount ∧
    d.toNat % 32 = entry.concentrator

/-- A header word of a HEARTBEAT that suits the link. -/
def HeartbeatHeader (entry : LinkEntry) (d : BitVec 16) : Prop :=
  d.toNat / 16384 = 2 ∧ d.toNat / 32 % 32 = 0 ∧ d.toNat % 32 = entry.concentrator

/-- The header of a kind that the data bits spell. -/
def headerWith (k : FrameKind) (d : BitVec 16) : Header :=
  ⟨k, BitVec.ofNat 4 (d.toNat / 1024), d.toNat / 32 % 32, d.toNat % 32⟩

theorem extractLsb_toNat {n : Nat} (d : BitVec n) (start len : Nat) :
    (d.extractLsb' start len).toNat = d.toNat / 2 ^ start % 2 ^ len := by
  rw [BitVec.extractLsb'_toNat, Nat.shiftRight_eq_div_pow]

theorem headerOf_eq (d : BitVec 16) : headerOf d =
    if d.toNat / 16384 = 1 then some (headerWith .report d)
    else if d.toNat / 16384 = 2 then some (headerWith .heartbeat d) else none := by
  have hd := d.isLt
  have hkind : (d.extractLsb' 14 2).toNat = d.toNat / 16384 := by
    rw [extractLsb_toNat]
    omega
  have hsequence : d.extractLsb' 10 4 = BitVec.ofNat 4 (d.toNat / 1024) := by
    apply BitVec.eq_of_toNat_eq
    rw [extractLsb_toNat, BitVec.toNat_ofNat]
    rfl
  have hcount : (d.extractLsb' 5 5).toNat = d.toNat / 32 % 32 := extractLsb_toNat ..
  have hid : (d.extractLsb' 0 5).toNat = d.toNat % 32 := by
    rw [extractLsb_toNat]
    omega
  have hframe : frameKindOf d = if d.toNat / 16384 = 1 then some .report
      else if d.toNat / 16384 = 2 then some .heartbeat else none := by
    unfold frameKindOf
    rw [hkind]
    by_cases h1 : d.toNat / 16384 = 1
    · rw [h1]; rfl
    · by_cases h2 : d.toNat / 16384 = 2
      · rw [h2]; rfl
      · rw [if_neg h1, if_neg h2]
        split
        next h => exact absurd h h1
        next h => exact absurd h h2
        next => rfl
  rw [headerOf, hframe]
  split
  · simp [headerWith, hsequence, hcount, hid]
  · split <;> simp [headerWith, hsequence, hcount, hid]

theorem headerPasses_report_iff {entry : LinkEntry} {d : BitVec 16} :
    headerPasses entry (headerWith .report d) = true ↔ 1 ≤ d.toNat / 32 % 32 ∧ d.toNat / 32 % 32 ≤ 16 ∧
      d.toNat / 32 % 32 ≤ entry.pointCount ∧ d.toNat % 32 = entry.concentrator := by
  have hcount : countSuits (headerWith .report d) = true ↔ 1 ≤ d.toNat / 32 % 32 ∧ d.toNat / 32 % 32 ≤ 16 :=
    decide_eq_true_iff
  have hslots : ((headerWith .report d).kind == .heartbeat ||
      decide ((headerWith .report d).pointCount ≤ entry.pointCount)) = true ↔ d.toNat / 32 % 32 ≤ entry.pointCount :=
    decide_eq_true_iff
  rw [headerPasses, Bool.and_eq_true, Bool.and_eq_true, hcount, hslots, beq_iff_eq, and_assoc, and_assoc]
  rfl

theorem headerPasses_heartbeat_iff {entry : LinkEntry} {d : BitVec 16} :
    headerPasses entry (headerWith .heartbeat d) = true ↔ d.toNat / 32 % 32 = 0 ∧ d.toNat % 32 = entry.concentrator := by
  simp [headerPasses, countSuits, headerWith]

section JudgeHeader
variable {entry : LinkEntry} {d : BitVec 16} (r : Receiver)

theorem judgeHeader_report (h : ReportHeader entry d) :
    judgeHeader entry d r = ⟨r.goto (.tag (headerWith .report d)), [], none⟩ := by
  obtain ⟨hkind, hfields⟩ := h
  have hheader : headerOf d = some (headerWith .report d) := by rw [headerOf_eq, if_pos hkind]
  unfold judgeHeader
  rw [hheader]
  exact if_pos (headerPasses_report_iff.mpr hfields)

theorem judgeHeader_heartbeat (h : HeartbeatHeader entry d) :
    judgeHeader entry d r = ⟨r.goto (.tag (headerWith .heartbeat d)), [], none⟩ := by
  obtain ⟨hkind, hfields⟩ := h
  have hheader : headerOf d = some (headerWith .heartbeat d) := by
    rw [headerOf_eq, if_neg (by omega), if_pos hkind]
  unfold judgeHeader
  rw [hheader]
  exact if_pos (headerPasses_heartbeat_iff.mpr hfields)

theorem judgeHeader_bad (hreport : ¬ ReportHeader entry d) (hheartbeat : ¬ HeartbeatHeader entry d) :
    judgeHeader entry d r = ⟨r.discard .discard, [.form], none⟩ := by
  unfold judgeHeader
  rw [headerOf_eq]
  by_cases h1 : d.toNat / 16384 = 1
  · rw [if_pos h1]
    exact if_neg fun h => hreport ⟨h1, headerPasses_report_iff.mp h⟩
  · rw [if_neg h1]
    by_cases h2 : d.toNat / 16384 = 2
    · rw [if_pos h2]
      exact if_neg fun h => hheartbeat ⟨h2, headerPasses_heartbeat_iff.mp h⟩
    · rw [if_neg h2]

theorem judgeHeader_strayRun (entry : LinkEntry) (d : BitVec 16) (b : Bool) :
    judgeHeader entry d { r with strayRun := b } = judgeHeader entry d r := by
  unfold judgeHeader
  cases headerOf d <;> rfl

end JudgeHeader

/-! ## One word in each decoder state (R22, R23, R25 to R28, R33) -/

section OneWord
variable {entry : LinkEntry} {w : LinkWord} {r : Receiver}

theorem wordClass_header_iff : wordClass w = .header ↔ w.s = true ∧ w.e = false := by
  cases hs : w.s <;> cases he : w.e <;> simp [wordClass, hs, he]

theorem wordClass_plain_iff : wordClass w = .plain ↔ w.s = false ∧ w.e = false := by
  cases hs : w.s <;> cases he : w.e <;> simp [wordClass, hs, he]

theorem wordClass_last_iff : wordClass w = .last ↔ w.s = false ∧ w.e = true := by
  cases hs : w.s <;> cases he : w.e <;> simp [wordClass, hs, he]

theorem wordClass_abort_iff : wordClass w = .abort ↔ w.s = true ∧ w.e = true := by
  cases hs : w.s <;> cases he : w.e <;> simp [wordClass, hs, he]

/-- Whether the decoder is inside a frame. -/
def Receiver.inFrame (r : Receiver) : Prop := r.decoder ≠ .hunt ∧ r.decoder ≠ .discard

theorem Receiver.inFrame_cases (h : r.inFrame) :
    (∃ f, r.decoder = .tag f) ∨ ∃ f tag got a, r.decoder = .points f tag got a := by
  obtain ⟨hhunt, hdiscard⟩ := h
  cases hd : r.decoder with
  | hunt => exact absurd hd hhunt
  | tag f => exact .inl ⟨f, rfl⟩
  | points f tag got a => exact .inr ⟨f, tag, got, a, rfl⟩
  | discard => exact absurd hd hdiscard

theorem receiveWord_of_bad (h : wordGood w = false) : receiveWord entry w r = badWord r := by
  unfold receiveWord
  rw [h]
  rfl

theorem badWord_outside (h : r.decoder = .hunt ∨ r.decoder = .discard) : badWord r = ⟨r, [.line], none⟩ := by
  unfold badWord
  obtain h | h := h <;> rw [h]

theorem badWord_in_frame (h : r.inFrame) : badWord r = ⟨r.discard .discard, [.line], none⟩ := by
  unfold badWord
  obtain ⟨f, h⟩ | ⟨f, tag, got, a, h⟩ := Receiver.inFrame_cases h <;> rw [h]

section Good
variable (hgood : wordGood w = true)
include hgood

theorem receiveWord_hunt (h : r.decoder = .hunt) : receiveWord entry w r = wordInHunt entry w r := by
  unfold receiveWord
  rw [hgood, h]
  rfl

theorem receiveWord_tag {f : Header} (h : r.decoder = .tag f) : receiveWord entry w r = wordInTag entry f w r := by
  unfold receiveWord
  rw [hgood, h]
  rfl

theorem receiveWord_points {f : Header} {tag : BitVec 16} {got : List Reading} {a : Option WordA}
    (h : r.decoder = .points f tag got a) : receiveWord entry w r = wordInPoints entry f tag got a w r := by
  unfold receiveWord
  rw [hgood, h]
  rfl

theorem receiveWord_discard (h : r.decoder = .discard) : receiveWord entry w r = wordInDiscard entry w r := by
  unfold receiveWord
  rw [hgood, h]
  rfl

theorem receiveWord_header_outside (hclass : wordClass w = .header) (h : r.decoder = .hunt ∨ r.decoder = .discard) :
    receiveWord entry w r = judgeHeader entry w.data r := by
  obtain h | h := h
  · rw [receiveWord_hunt hgood h]
    unfold wordInHunt
    rw [hclass]
    exact judgeHeader_strayRun ..
  · rw [receiveWord_discard hgood h]
    unfold wordInDiscard
    rw [hclass]

theorem receiveWord_header_in_frame (hclass : wordClass w = .header) (h : r.inFrame) :
    receiveWord entry w r = headerInside entry w.data r := by
  obtain ⟨f, h⟩ | ⟨f, tag, got, a, h⟩ := Receiver.inFrame_cases h
  · rw [receiveWord_tag hgood h]
    unfold wordInTag
    rw [hclass]
  · rw [receiveWord_points hgood h]
    unfold wordInPoints
    rw [hclass]

theorem receiveWord_abort_in_frame (hclass : wordClass w = .abort) (h : r.inFrame) :
    receiveWord entry w r = formDiscard .hunt r := by
  obtain ⟨f, h⟩ | ⟨f, tag, got, a, h⟩ := Receiver.inFrame_cases h
  · rw [receiveWord_tag hgood h]
    unfold wordInTag
    rw [hclass]
  · rw [receiveWord_points hgood h]
    unfold wordInPoints
    rw [hclass]

theorem receiveWord_stray (hclass : wordClass w ≠ .header) (h : r.decoder = .hunt) : receiveWord entry w r =
    if r.strayRun = true then ⟨r, [], none⟩ else ⟨{ r with strayRun := true }, [.form], none⟩ := by
  rw [receiveWord_hunt hgood h]
  unfold wordInHunt
  cases hc : wordClass w with
  | header => exact absurd hc hclass
  | plain | last | abort => rfl

section Discard
variable (h : r.decoder = .discard)
include h

theorem receiveWord_discard_plain (hclass : wordClass w = .plain) : receiveWord entry w r = ⟨r, [], none⟩ := by
  rw [receiveWord_discard hgood h]
  unfold wordInDiscard
  rw [hclass]

theorem receiveWord_discard_end (hclass : wordClass w = .last ∨ wordClass w = .abort) :
    receiveWord entry w r = ⟨r.goto .hunt, [], none⟩ := by
  rw [receiveWord_discard hgood h]
  unfold wordInDiscard
  obtain hclass | hclass := hclass <;> rw [hclass]

end Discard

section Tag
variable {f : Header} (h : r.decoder = .tag f)
include h

theorem receiveWord_tag_plain (hclass : wordClass w = .plain) : receiveWord entry w r =
    if f.kind = .report then ⟨r.goto (.points f w.data [] none), [], none⟩ else formDiscard .discard r := by
  rw [receiveWord_tag hgood h]
  unfold wordInTag
  rw [hclass]
  cases f.kind <;> rfl

theorem receiveWord_tag_last (hclass : wordClass w = .last) : receiveWord entry w r =
    if f.kind = .heartbeat then takeFrame f ⟨.heartbeat, w.data, []⟩ r else formDiscard .hunt r := by
  rw [receiveWord_tag hgood h]
  unfold wordInTag
  rw [hclass]
  cases f.kind <;> rfl

end Tag

section Points
variable {f : Header} {tag : BitVec 16} {got : List Reading}

theorem receiveWord_wordA_plain (h : r.decoder = .points f tag got none) (hclass : wordClass w = .plain) :
    receiveWord entry w r = ⟨r.goto (.points f tag got (some (wordAOf w.data))), [], none⟩ := by
  rw [receiveWord_points hgood h]
  unfold wordInPoints
  rw [hclass]

theorem receiveWord_wordA_last (h : r.decoder = .points f tag got none) (hclass : wordClass w = .last) :
    receiveWord entry w r = formDiscard .hunt r := by
  rw [receiveWord_points hgood h]
  unfold wordInPoints
  rw [hclass]

theorem receiveWord_wordB_plain {a : WordA} (h : r.decoder = .points f tag got (some a)) (hclass : wordClass w = .plain) :
    receiveWord entry w r = if got.length + 1 < f.pointCount then
      ⟨r.goto (.points f tag (got ++ [readingOf a w.data]) none), [], none⟩ else formDiscard .discard r := by
  rw [receiveWord_points hgood h]
  unfold wordInPoints
  rw [hclass]

theorem receiveWord_wordB_last {a : WordA} (h : r.decoder = .points f tag got (some a)) (hclass : wordClass w = .last) :
    receiveWord entry w r = if got.length + 1 < f.pointCount then formDiscard .hunt r
      else takeFrame f ⟨f.kind, tag, got ++ [readingOf a w.data]⟩ r := by
  rw [receiveWord_points hgood h]
  unfold wordInPoints
  rw [hclass]

end Points

end Good

/-- A frame taken, with its sequence check as a proposition (R29). -/
theorem takeFrame_eq (h : Header) (f : Delivery) (r : Receiver) : takeFrame h f r =
    ⟨{ r.goto .hunt with lastSeq := h.sequence, armed := true, taken := r.taken + 1 },
      if r.armed = true ∧ h.sequence ≠ r.lastSeq + 1 then [.sequence] else [], some f⟩ := by
  simp only [takeFrame, Bool.and_eq_true, bne_iff_ne]

end OneWord

/-! ## A frame word by word (R26, R29, 13.1) -/

section Frame
variable {entry : LinkEntry} {w : LinkWord} {ws : List LinkWord} {r : Receiver}

theorem receiveWords_of_quiet {r' : Receiver} (h : receiveWord entry w r = ⟨r', [], none⟩) :
    receiveWords entry (w :: ws) r = receiveWords entry ws r' := by
  simp only [receiveWords, h, List.nil_append, Option.toList_none]

/-- What taking a frame leaves, as a run of words reports it. -/
def frameTaken (h : Header) (f : Delivery) (r : Receiver) : Receiver × List ErrorKind × List Delivery :=
  ((takeFrame h f r).rx, (takeFrame h f r).events, [f])

theorem receiveWords_of_taken {h : Header} {f : Delivery} (hw : receiveWord entry w r = takeFrame h f r) :
    receiveWords entry [w] r = frameTaken h f r := by
  simp only [receiveWords, hw, List.append_nil]
  rfl

theorem toNat_append_eq {m n : Nat} (a : BitVec m) (b : BitVec n) : (a ++ b).toNat = a.toNat * 2 ^ n + b.toNat := by
  rw [BitVec.toNat_append, ← Nat.shiftLeft_add_eq_or_of_lt b.isLt, Nat.shiftLeft_eq]

theorem readingOf_wordAOf (x : Reading) : readingOf (wordAOf (wordAData x)) (x.value.extractLsb' 0 16) = x := by
  have hvalue := x.value.isLt
  have hdata : (wordAData x).toNat = x.fault.toNat * 32768 + x.manual.toNat * 16384 + x.value.toNat / 65536 := by
    simp only [wordAData, toNat_append_eq, BitVec.toNat_ofBool, extractLsb_toNat, BitVec.toNat_ofNat]
    omega
  have hfault : (wordAData x).getLsbD 15 = x.fault := by
    rw [BitVec.getLsbD, Nat.testBit_eq_decide_div_mod_eq, hdata]
    cases x.fault <;> cases x.manual <;> simp <;> omega
  have hmanual : (wordAData x).getLsbD 14 = x.manual := by
    rw [BitVec.getLsbD, Nat.testBit_eq_decide_div_mod_eq, hdata]
    cases x.fault <;> cases x.manual <;> simp <;> omega
  have hcount : (wordAData x).extractLsb' 0 8 ++ x.value.extractLsb' 0 16 = x.value := by
    apply BitVec.eq_of_toNat_eq
    rw [toNat_append_eq, extractLsb_toNat, extractLsb_toNat, hdata]
    omega
  simp only [readingOf, wordAOf, hfault, hmanual, hcount]

theorem wordClass_goodWord (d : BitVec 16) (e : Bool) :
    wordClass (goodWord d false e) = if e then .last else .plain := by
  cases e <;> rfl

theorem receiveWords_slotWords (entry : LinkEntry) (h : Header) (tag : BitVec 16) (x : Reading) (rest got : List Reading)
    (r : Receiver) (hcount : h.pointCount = got.length + rest.length + 1) :
    receiveWords entry (slotWords (x :: rest)) (r.goto (.points h tag got none)) =
      frameTaken h ⟨h.kind, tag, got ++ x :: rest⟩ r := by
  induction rest generalizing x got r with
  | nil =>
    rw [slotWords, receiveWords_of_quiet (receiveWord_wordA_plain (wordGood_goodWord ..) rfl rfl)]
    refine receiveWords_of_taken ((receiveWord_wordB_last (wordGood_goodWord ..) rfl rfl).trans ?_)
    rw [if_neg (by simp [hcount])]
    dsimp only [goodWord]
    rw [readingOf_wordAOf]
  | cons y rest ih =>
    rw [slotWords, receiveWords_of_quiet (receiveWord_wordA_plain (wordGood_goodWord ..) rfl rfl),
      receiveWords_of_quiet ((receiveWord_wordB_plain (wordGood_goodWord ..) rfl rfl).trans (if_pos ?_))]
    · dsimp only [goodWord]
      rw [readingOf_wordAOf]
      refine (ih y (got ++ [x]) r (by simp [hcount]; omega)).trans ?_
      rw [List.append_assoc]
      rfl
    · simp [hcount]

/-- The fields of a header's data bits (13.1). -/
theorem headerData_fields {h : Header} (hcount : h.pointCount ≤ 31) (hid : h.concentrator ≤ 31) :
    (headerData h).toNat / 16384 = (frameKindBits h.kind).toNat ∧ headerWith h.kind (headerData h) = h := by
  have hsequence := h.sequence.isLt
  have htotal : (headerData h).toNat =
      (frameKindBits h.kind).toNat * 16384 + h.sequence.toNat * 1024 + h.pointCount * 32 + h.concentrator := by
    simp only [headerData, toNat_append_eq, BitVec.toNat_ofNat]
    omega
  have hseq : BitVec.ofNat 4 ((headerData h).toNat / 1024) = h.sequence := by
    apply BitVec.eq_of_toNat_eq
    rw [BitVec.toNat_ofNat, htotal]
    omega
  refine ⟨by omega, ?_⟩
  rw [headerWith, hseq, htotal]
  obtain ⟨k, sequence, count, id⟩ := h
  dsimp only at hcount hid ⊢
  congr 1 <;> omega

theorem headerOf_headerData {h : Header} (hcount : h.pointCount ≤ 31) (hid : h.concentrator ≤ 31) :
    headerOf (headerData h) = some h := by
  obtain ⟨hkind, hfields⟩ := headerData_fields hcount hid
  rw [headerOf_eq, hkind]
  cases hk : h.kind <;> rw [hk] at hfields <;> simp [frameKindBits, hfields]

/-- A header that suits the link opens its frame (R24). -/
theorem receiveWord_headerData {h : Header} (hhunt : r.decoder = .hunt) (hcount : h.pointCount ≤ 31)
    (hid : h.concentrator ≤ 31) (hpasses : headerPasses entry h = true) :
    receiveWord entry (goodWord (headerData h) true false) r = ⟨r.goto (.tag h), [], none⟩ := by
  rw [receiveWord_header_outside (wordGood_goodWord ..) rfl (.inl hhunt)]
  dsimp only [goodWord]
  unfold judgeHeader
  rw [headerOf_headerData hcount hid]
  exact if_pos hpasses

/-- The words of a frame after its header (R25, R26). -/
theorem receiveWords_after_header (entry : LinkEntry) (h : Header) (tag : BitVec 16) (readings : List Reading) (r : Receiver)
    (hcount : h.pointCount = readings.length) (hkind : h.kind = .heartbeat ↔ readings = []) :
    receiveWords entry (goodWord tag false readings.isEmpty :: slotWords readings) (r.goto (.tag h)) =
      frameTaken h ⟨h.kind, tag, readings⟩ r := by
  cases readings with
  | nil =>
    have hheartbeat : h.kind = .heartbeat := hkind.mpr rfl
    refine receiveWords_of_taken ((receiveWord_tag_last (wordGood_goodWord ..) rfl rfl).trans ?_)
    rw [if_pos hheartbeat, hheartbeat]
    rfl
  | cons x rest =>
    have hreport : h.kind = .report := by
      cases hk : h.kind with
      | report => rfl
      | heartbeat => exact absurd (hkind.mp hk) nofun
    rw [receiveWords_of_quiet ((receiveWord_tag_plain (wordGood_goodWord ..) rfl rfl).trans (if_pos hreport))]
    exact receiveWords_slotWords entry h tag x rest [] r (by simp [hcount])

end Frame

/-- Settles O32: the tables word by word, the parity as a sum, and a frame by induction over its slots. -/
theorem aWholeFrameIsTakenExactly : Obligations.AWholeFrameIsTakenExactly := by
  refine ⟨fun entry w r => ?_, wordGood_iff, ?_⟩
  · intro moved broken kind count id sequence report heartbeat header plain last abort x taken
    have hfirst : (r.discard .hunt).discard .discard = broken 2 .discard := by
      simp only [Receiver.discard, Receiver.goto, broken, moved, BitVec.add_assoc]
      rfl
    have htaken (h : Header) (d : Delivery) : takeFrame h d r = taken h d := takeFrame_eq h d r
    refine ⟨fun hbad => ⟨fun h => (receiveWord_of_bad hbad).trans (badWord_outside h),
      fun hhunt hdiscard => (receiveWord_of_bad hbad).trans (badWord_in_frame ⟨hhunt, hdiscard⟩)⟩, fun hgood => ?_⟩
    refine ⟨fun hclass houtside => ?_, fun hclass hhunt hdiscard => ?_, fun hclass hhunt => ?_, fun hdiscard => ?_,
      fun hclass hhunt hdiscard => ?_, fun h htag => ?_, fun h tag got => ⟨fun hpoints => ?_, fun a hpoints => ?_⟩⟩
    · have hx : x = judgeHeader entry w.data r := receiveWord_header_outside hgood (wordClass_header_iff.mpr hclass) houtside
      rw [hx]
      exact ⟨judgeHeader_report r, judgeHeader_heartbeat r, judgeHeader_bad r⟩
    · have hx : x = headerInside entry w.data r :=
        receiveWord_header_in_frame hgood (wordClass_header_iff.mpr hclass) ⟨hhunt, hdiscard⟩
      rw [hx, headerInside]
      refine ⟨fun h => ?_, fun h => ?_, fun hreport hheartbeat => ?_⟩
      · rw [judgeHeader_report _ h]; rfl
      · rw [judgeHeader_heartbeat _ h]; rfl
      · rw [judgeHeader_bad _ hreport hheartbeat, hfirst]
    · exact receiveWord_stray hgood (fun h => hclass (wordClass_header_iff.mp h)) hhunt
    · refine ⟨fun hclass => receiveWord_discard_plain hgood hdiscard (wordClass_plain_iff.mpr hclass), fun hclass => ?_⟩
      exact receiveWord_discard_end hgood hdiscard (hclass.imp wordClass_last_iff.mpr wordClass_abort_iff.mpr)
    · exact receiveWord_abort_in_frame hgood (wordClass_abort_iff.mpr hclass) ⟨hhunt, hdiscard⟩
    · have hplain (hclass : plain) := receiveWord_tag_plain (entry := entry) hgood htag (wordClass_plain_iff.mpr hclass)
      have hlast (hclass : last) := receiveWord_tag_last (entry := entry) hgood htag (wordClass_last_iff.mpr hclass)
      refine ⟨fun hclass hkind => ?_, fun hclass hkind => ?_, fun hclass hkind => ?_, fun hclass hkind => ?_⟩
      · exact (hplain hclass).trans (if_pos hkind)
      · exact (hplain hclass).trans (if_neg (by rw [hkind]; nofun))
      · exact (hlast hclass).trans (if_neg (by rw [hkind]; nofun))
      · exact (hlast hclass).trans ((if_pos hkind).trans (htaken ..))
    · exact ⟨fun hclass => receiveWord_wordA_plain hgood hpoints (wordClass_plain_iff.mpr hclass),
        fun hclass => receiveWord_wordA_last hgood hpoints (wordClass_last_iff.mpr hclass)⟩
    · intro got'
      have hplain (hclass : plain) := receiveWord_wordB_plain (entry := entry) hgood hpoints (wordClass_plain_iff.mpr hclass)
      have hlast (hclass : last) := receiveWord_wordB_last (entry := entry) hgood hpoints (wordClass_last_iff.mpr hclass)
      refine ⟨fun hclass hmore => ?_, fun hclass hend => ?_, fun hclass hmore => ?_, fun hclass hend => ?_⟩
      · exact (hplain hclass).trans (if_pos hmore)
      · exact (hplain hclass).trans (if_neg (Nat.not_lt.mpr hend))
      · exact (hlast hclass).trans (if_pos hmore)
      · exact (hlast hclass).trans ((if_neg (Nat.not_lt.mpr hend)).trans (htaken ..))
  · intro entry h tag readings r hhunt hid hlimit hcount hheartbeat hreport
    have hkind : h.kind = .heartbeat ↔ readings = [] := by
      refine ⟨hheartbeat, fun hnil => ?_⟩
      cases hk : h.kind with
      | heartbeat => rfl
      | report => exact absurd (hreport hk).1 (by simp [hnil])
    have hsuits : h.pointCount ≤ 31 ∧ headerPasses entry h = true := by
      cases hk : h.kind with
      | report =>
        obtain ⟨hleast, hmost, hslots⟩ := hreport hk
        simp [headerPasses, countSuits, hk, hid, hcount, hslots]
        omega
      | heartbeat => simp [headerPasses, countSuits, hk, hid, hcount, hheartbeat hk]
    rw [frameWords, receiveWords_of_quiet (receiveWord_headerData hhunt hsuits.1 hlimit hsuits.2),
      receiveWords_after_header entry h tag readings r hcount hkind, frameTaken, takeFrame_eq]
    rfl

end Sys2Proof.Machine
end

section
/-! PROOFS. An apply of the staged map and the start of a computation (R13 to R17, R42, R55 to R58, R87, R151) (O23, O29). -/

namespace Sys2Proof.Machine

/-! ## A queue emptied into the no-pull account (R16, R151) -/

/-- A furnace record with the content of a queue moved to its no-pull energy, up to 48 bits. -/
def FurnaceRecord.takeNoPull (k : Kj) (r : FurnaceRecord) : FurnaceRecord :=
  { r with noPull := (r.noPull.add k).limit Config.bankMax }

theorem FurnaceRecord.limit_noPull {r : FurnaceRecord} (h : r.above = false) (k : Kj) :
    ({ r with noPull := r.noPull.add k } : FurnaceRecord).limit = r.takeNoPull k := by
  have hlimit := FurnaceRecord.limit_of_above_eq_false h
  obtain ⟨⟩ := r
  simp only [FurnaceRecord.limit, FurnaceRecord.takeNoPull, FurnaceRecord.mk.injEq] at hlimit ⊢
  simp only [hlimit, and_self]

theorem FurnaceRecord.above_noPull {r : FurnaceRecord} (h : r.above = false) (n : Kj) :
    ({ r with noPull := n } : FurnaceRecord).above = n.above Config.bankMax := by
  simp only [FurnaceRecord.above, List.any_cons, List.any_nil, Bool.or_false, Bool.or_eq_false_iff] at h ⊢
  obtain ⟨⟨hmetered, hattributed, -, hhold, hheatup⟩, hpull⟩ := h
  simp only [hmetered, hattributed, hhold, hheatup, hpull, Bool.false_or, Bool.or_false]

theorem Bank.above_addNoPull {b : Bank} (h : b.above = false) (f : Fin 4) (k : Kj) :
    (b.addNoPull f k).above = ((b.furnaces.get f).noPull.add k).above Config.bankMax := by
  obtain ⟨hfurnaces, hlines, hpools, hplant⟩ := Bank.above_eq_false_iff.mp h
  have hother (g : Fin 4) (hg : f ≠ g) : ((b.addNoPull f k).furnaces.get g).above = false := by
    rw [Bank.addNoPull, Tab.get_modify, if_neg hg, hfurnaces]
  have hself : ((b.addNoPull f k).furnaces.get f).above = ((b.furnaces.get f).noPull.add k).above Config.bankMax := by
    rw [Bank.addNoPull, Tab.get_modify, if_pos rfl]
    exact FurnaceRecord.above_noPull (hfurnaces f) _
  cases habove : ((b.furnaces.get f).noPull.add k).above Config.bankMax with
  | false =>
    refine Bank.above_eq_false_iff.mpr ⟨fun g => ?_, hlines, hpools, hplant⟩
    by_cases hg : f = g
    · rw [← hg, hself, habove]
    · exact hother g hg
  | true =>
    refine Bool.not_eq_false _ ▸ fun hfalse => ?_
    rw [(Bank.above_eq_false_iff.mp hfalse).1 f, habove] at hself
    exact nomatch hself

theorem Bank.settle_addNoPull {b : Bank} (h : b.above = false) (f : Fin 4) (k : Kj) : (b.addNoPull f k).settle =
    { b with
      saturated := b.saturated || ((b.furnaces.get f).noPull.add k).above Config.bankMax
      furnaces := b.furnaces.modify f (FurnaceRecord.takeNoPull k) } := by
  have hsettled := Bank.settle_of_above_eq_false h
  have habove := Bank.above_addNoPull h f k
  have hfurnaces := (Bank.above_eq_false_iff.mp h).1
  have hf : ((b.addNoPull f k).furnaces.mapIdx fun _ r => r.limit) = b.furnaces.modify f (FurnaceRecord.takeNoPull k) := by
    ext1 g
    rw [Tab.get_mapIdx, Bank.addNoPull, Tab.get_modify, Tab.get_modify]
    split
    · exact FurnaceRecord.limit_noPull (hfurnaces g) k
    · exact FurnaceRecord.limit_of_above_eq_false (hfurnaces g)
  have hl : (b.lines.mapIdx fun _ r => r.limit) = b.lines := congrArg Bank.lines hsettled
  have hp : (b.pools.mapIdx fun _ r => r.limit) = b.pools := congrArg Bank.pools hsettled
  have ht : b.plant.limit = b.plant := congrArg Bank.plant hsettled
  rw [Bank.settle, habove, hf]
  simp only [Bank.addNoPull, hl, hp, ht]

/-! ## The furnaces retired by an apply (R16) -/

/-- The content of furnace `f`'s queue brings its no-pull energy above 48 bits. -/
def State.overflowsAt (s : State) (f : Fin 4) : Prop :=
  ∃ c, Config.bankMax < (s.activeBank.furnaces.get f).noPull.get c + (queueContent (s.furnaces.get f).queue).get c

/-- A state in which exactly the furnaces of `q` have been retired from a state `s` whose ACTIVE bank is within its 48 bits. -/
structure State.Retired (q : Fin 4 → Prop) (s u : State) : Prop where
  activeIdx : u.activeIdx = s.activeIdx
  otherBank : u.banks.get (other s.activeIdx) = s.banks.get (other s.activeIdx)
  rest : u.activeBank = { s.activeBank with saturated := u.activeBank.saturated, furnaces := u.activeBank.furnaces }
  above : u.activeBank.above = false
  emptied : ∀ f, q f → u.furnaces.get f = { s.furnaces.get f with queue := [] }
  account : ∀ f, q f → u.activeBank.furnaces.get f =
    (s.activeBank.furnaces.get f).takeNoPull (queueContent (s.furnaces.get f).queue)
  kept : ∀ f, ¬ q f → u.furnaces.get f = s.furnaces.get f ∧ u.activeBank.furnaces.get f = s.activeBank.furnaces.get f
  saturated : u.activeBank.saturated = true ↔ s.activeBank.saturated = true ∨ ∃ f, q f ∧ s.overflowsAt f
  notified : (∃ f, q f ∧ s.overflowsAt f) → u.ports = s.ports.notify .saturated
  silent : (¬ ∃ f, q f ∧ s.overflowsAt f) → u.ports = s.ports

section Retired
variable {s u v : State} {q q' : Fin 4 → Prop}

theorem State.Retired.nothing (h : s.activeBank.above = false) (hq : ∀ f, ¬ q f) : State.Retired q s s where
  activeIdx := rfl
  otherBank := rfl
  rest := rfl
  above := h
  emptied f hf := absurd hf (hq f)
  account f hf := absurd hf (hq f)
  kept _ _ := ⟨rfl, rfl⟩
  saturated := by simp [hq]
  notified := fun ⟨f, hf, _⟩ => absurd hf (hq f)
  silent _ := rfl

theorem State.activeIdx_putBank_of_state {b : Bank} (h : b.state = s.activeBank.state) :
    (s.putBank s.activeIdx b).activeIdx = s.activeIdx := by
  unfold State.activeBank at h
  unfold State.activeIdx at h ⊢
  by_cases h0 : (s.banks.get 0).state = .active
  · rw [if_pos h0] at h ⊢
    simp [h, h0]
  · rw [if_neg h0] at h ⊢
    simp [h0]

theorem State.retireFurnace_banks (s : State) (f : Fin 4) : (s.retireFurnace f).banks =
    (s.putBank s.activeIdx (s.activeBank.addNoPull f (queueContent (s.furnaces.get f).queue)).settle).banks := by
  simp [State.retireFurnace]

theorem State.activeIdx_congr {s t : State} (h : t.banks = s.banks) : t.activeIdx = s.activeIdx := by
  simp only [State.activeIdx, h]

theorem State.retireFurnace_activeIdx (s : State) (f : Fin 4) : (s.retireFurnace f).activeIdx = s.activeIdx :=
  (State.activeIdx_congr (s.retireFurnace_banks f)).trans (State.activeIdx_putBank_of_state rfl)

theorem State.retireFurnace_activeBank (s : State) (f : Fin 4) : (s.retireFurnace f).activeBank =
    (s.activeBank.addNoPull f (queueContent (s.furnaces.get f).queue)).settle := by
  rw [State.activeBank, s.retireFurnace_activeIdx, s.retireFurnace_banks]
  exact Tab.get_set_self ..

theorem State.retireFurnace_furnaces (s : State) (f g : Fin 4) : (s.retireFurnace f).furnaces.get g =
    if f = g then { s.furnaces.get g with queue := [] } else s.furnaces.get g := by
  simp only [State.retireFurnace, State.notifyIf_furnaces, State.putFurnace_furnaces, State.putBank_furnaces, Tab.get_set]
  split
  next h => rw [h]
  next => rfl

theorem State.Retired.one (h : s.activeBank.above = false) (f : Fin 4) :
    State.Retired (fun g => g = f) s (s.retireFurnace f) := by
  have hbank := (s.retireFurnace_activeBank f).trans (Bank.settle_addNoPull h f _)
  have hmoved : (s.activeBank.addNoPull f (queueContent (s.furnaces.get f).queue)).above = true ↔
      ∃ g, g = f ∧ s.overflowsAt g := by
    rw [Bank.above_addNoPull h, exists_eq_left, Kj.above_eq_true_iff]
    simp only [Kj.get_add]
    rfl
  have hports : (s.retireFurnace f).ports =
      if (s.activeBank.addNoPull f (queueContent (s.furnaces.get f).queue)).above then s.ports.notify .saturated
      else s.ports := by
    simp only [State.retireFurnace, State.notifyIf_ports, State.putFurnace_ports, State.putBank_ports]
  refine ⟨s.retireFurnace_activeIdx f, ?_, ?_, ?_, fun g hg => ?_, fun g hg => ?_, fun g hg => ⟨?_, ?_⟩, ?_,
    fun hover => ?_, fun hover => ?_⟩
  · rw [s.retireFurnace_banks, State.putBank_banks, Tab.get_set, if_neg (other_ne _).symm]
  · rw [hbank]
  · rw [s.retireFurnace_activeBank, Bank.above_settle]
  · rw [s.retireFurnace_furnaces, if_pos hg.symm]
  · rw [hbank, Tab.get_modify, if_pos hg.symm, hg]
  · rw [s.retireFurnace_furnaces, if_neg (Ne.symm hg)]
  · rw [hbank, Tab.get_modify, if_neg (Ne.symm hg)]
  · rw [hbank, Bool.or_eq_true, ← Bank.above_addNoPull h, hmoved]
  · rw [hports, if_pos (hmoved.mpr hover)]
  · rw [hports, if_neg (mt hmoved.mp hover)]

theorem Ports.notify_notify (p : Ports) (n : Notice) : (p.notify n).notify n = p.notify n := by
  refine Ports.ext_get fun w => ?_
  simp only [Ports.notify_get, PortUnit.notify, BitVec.or_assoc, BitVec.or_self]

theorem State.Retired.trans (h : State.Retired q s u) (h' : State.Retired q' u v) (hdisjoint : ∀ f, q f → ¬ q' f) :
    State.Retired (fun f => q f ∨ q' f) s v := by
  have hsame (f : Fin 4) (hf : q' f) := h.kept f fun hq => hdisjoint f hq hf
  have hover (f : Fin 4) (hf : q' f) : u.overflowsAt f ↔ s.overflowsAt f := by
    unfold State.overflowsAt
    rw [(hsame f hf).1, (hsame f hf).2]
  have hsplit : (∃ f, (q f ∨ q' f) ∧ s.overflowsAt f) ↔
      (∃ f, q f ∧ s.overflowsAt f) ∨ ∃ f, q' f ∧ u.overflowsAt f := by
    rw [← exists_or]
    refine exists_congr fun f => ?_
    rw [or_and_right]
    exact or_congr Iff.rfl (and_congr_right fun hf => (hover f hf).symm)
  refine ⟨h'.activeIdx.trans h.activeIdx, ?_, ?_, h'.above, fun f hf => ?_, fun f hf => ?_, fun f hf => ?_, ?_, fun hf => ?_,
    fun hf => ?_⟩
  · rw [← h.otherBank, ← h.activeIdx, h'.otherBank]
  · rw [h'.rest, h.rest]
  · by_cases hq : q f
    · rw [(h'.kept f (hdisjoint f hq)).1, h.emptied f hq]
    · rw [h'.emptied f (hf.resolve_left hq), (h.kept f hq).1]
  · by_cases hq : q f
    · rw [(h'.kept f (hdisjoint f hq)).2, h.account f hq]
    · rw [h'.account f (hf.resolve_left hq), (h.kept f hq).1, (h.kept f hq).2]
  · obtain ⟨hq, hq'⟩ := not_or.mp hf
    obtain ⟨hfurnace, hrecord⟩ := h'.kept f hq'
    obtain ⟨hfurnace', hrecord'⟩ := h.kept f hq
    exact ⟨hfurnace.trans hfurnace', hrecord.trans hrecord'⟩
  · rw [h'.saturated, h.saturated, hsplit, or_assoc]
  · by_cases hlast : ∃ f, q' f ∧ u.overflowsAt f
    · rw [h'.notified hlast]
      by_cases hfirst : ∃ f, q f ∧ s.overflowsAt f
      · rw [h.notified hfirst, Ports.notify_notify]
      · rw [h.silent hfirst]
    · rw [h'.silent hlast, h.notified ((hsplit.mp hf).resolve_right hlast)]
  · obtain ⟨hf, hf'⟩ := not_or.mp (mt hsplit.mpr hf)
    rw [h'.silent hf', h.silent hf]

/-- The furnaces that an apply retires: enabled before, disabled now (R16). -/
def Retires (old new : PlantMap) (f : Fin 4) : Prop :=
  (old.furnaces.get f).enabled = true ∧ (new.furnaces.get f).enabled = false

theorem State.Retired.congr (h : State.Retired q s u) (hq : ∀ f, q f ↔ q' f) : State.Retired q' s u :=
  (funext fun f => propext (hq f)) ▸ h

/-- Furnace `f` retired where the apply retires it. -/
def State.retireIf (old new : PlantMap) (s : State) (f : Fin 4) : State :=
  if (old.furnaces.get f).enabled && !(new.furnaces.get f).enabled then s.retireFurnace f else s

theorem State.retireFurnaces_eq (s : State) (old new : PlantMap) :
    s.retireFurnaces old new = (indices 4).foldl (State.retireIf old new) s := rfl

theorem State.retireIf_of_retires {old new : PlantMap} {f : Fin 4} (h : Retires old new f) (s : State) :
    s.retireIf old new f = s.retireFurnace f := if_pos (by simp [h.1, h.2])

theorem State.retireIf_of_not_retires {old new : PlantMap} {f : Fin 4} (h : ¬ Retires old new f) (s : State) :
    s.retireIf old new f = s := if_neg (by simpa [Retires] using h)

theorem State.retired_foldl (old new : PlantMap) (fs : List (Fin 4)) (hnodup : fs.Nodup) (h : s.activeBank.above = false) :
    State.Retired (fun f => f ∈ fs ∧ Retires old new f) s (fs.foldl (State.retireIf old new) s) := by
  induction fs generalizing s with
  | nil => exact .nothing h (by simp)
  | cons f fs ih =>
    obtain ⟨hf, hfs⟩ := List.nodup_cons.mp hnodup
    rw [List.foldl_cons]
    by_cases hretires : Retires old new f
    · have hone := State.Retired.one h f
      rw [State.retireIf_of_retires hretires]
      refine (hone.trans (ih hfs hone.above) fun g hg hmem => hf (hg ▸ hmem.1)).congr fun g => ?_
      rw [List.mem_cons, or_and_right]
      exact or_congr (and_iff_left_of_imp fun hg => hg ▸ hretires).symm Iff.rfl
    · rw [State.retireIf_of_not_retires hretires]
      refine (ih hfs h).congr fun g => ?_
      rw [List.mem_cons, or_and_right]
      refine (or_iff_right ?_).symm
      rintro ⟨rfl, hg⟩
      exact hretires hg

theorem State.retired_retireFurnaces (old new : PlantMap) (h : s.activeBank.above = false) :
    State.Retired (Retires old new) s (s.retireFurnaces old new) :=
  (State.retired_foldl old new (indices 4) (List.nodup_finRange 4) h).congr fun f => and_iff_right (mem_indices f)

section Queues
variable {old new : PlantMap} {f : Fin 4}

theorem State.retireIf_furnace_kept {g : Fin 4} (h : g = f → ¬ Retires old new g) (s : State) :
    (s.retireIf old new g).furnaces.get f = s.furnaces.get f := by
  by_cases hg : Retires old new g
  · have hne : g ≠ f := fun hgf => h hgf hg
    rw [State.retireIf_of_retires hg, State.retireFurnace_furnaces, if_neg hne]
  · rw [State.retireIf_of_not_retires hg]

/-- Whatever the bank holds, a furnace that is not retired does not change. -/
theorem State.retireFurnaces_furnace_kept (h : ¬ Retires old new f) (s : State) :
    (s.retireFurnaces old new).furnaces.get f = s.furnaces.get f := by
  refine foldl_preserves (P := fun u => u.furnaces.get f = s.furnaces.get f) (f := State.retireIf old new)
    (fun u g hu => ?_) (indices 4) rfl
  exact (State.retireIf_furnace_kept (fun hgf => hgf ▸ h) u).trans hu

/-- Whatever the bank holds, a retired furnace's queue is emptied. -/
theorem State.retireFurnaces_furnace_emptied (h : Retires old new f) (s : State) :
    (s.retireFurnaces old new).furnaces.get f = { s.furnaces.get f with queue := [] } := by
  have hfold (fs : List (Fin 4)) (s : State) : (fs.foldl (State.retireIf old new) s).furnaces.get f =
      if f ∈ fs then { s.furnaces.get f with queue := [] } else s.furnaces.get f := by
    induction fs generalizing s with
    | nil => rfl
    | cons g fs ih =>
      rw [List.foldl_cons, ih]
      by_cases hgf : g = f
      · subst hgf
        rw [State.retireIf_of_retires h, State.retireFurnace_furnaces]
        simp
      · rw [State.retireIf_furnace_kept (absurd · hgf)]
        simp [Ne.symm hgf]
  rw [State.retireFurnaces_eq, hfold, if_pos (mem_indices f)]

end Queues

/-! ## Deliveries dropped (R42) -/

section Drops
variable {s : State} {i : Fin 2} {m : Fin 8}

/-- Link `m` would lose its delivery in set `i` if its quarantine state were derived anew. -/
def State.Drops (s : State) (i : Fin 2) (m : Fin 8) : Prop :=
  s.ctrl.setWith .opened = some i ∧ (s.links.get m).quarantined = false ∧
    covered (s.links.get m).flags s.plant.active.global.quarantineMask = true

theorem State.dropDelivery_slot (s : State) (l : Fin 8) (i : Fin 2) (m : Fin 8) :
    ((s.dropDelivery l).ctrl.sets.get i).links.get m =
      if s.ctrl.setWith .opened = some i ∧ l = m then none else (s.ctrl.sets.get i).links.get m := by
  unfold State.dropDelivery
  cases ho : s.ctrl.setWith .opened with
  | none => simp
  | some j =>
    simp only [State.putSet, Tab.get_set, Option.some.injEq]
    by_cases hj : j = i
    · subst hj
      simp only [if_true, Tab.get_set, true_and]
    · simp [hj]

theorem State.rederive_slot_of_drops (h : s.Drops i m) : ((s.rederive m).ctrl.sets.get i).links.get m = none := by
  obtain ⟨hopen, hbefore, hcovered⟩ := h
  rw [State.rederive, if_pos (by simp [hbefore, hcovered]), State.dropDelivery_slot]
  exact if_pos ⟨hopen, rfl⟩

theorem State.rederive_slot_of_not_drops {l : Fin 8} (h : l = m → ¬ s.Drops i m) :
    ((s.rederive l).ctrl.sets.get i).links.get m = (s.ctrl.sets.get i).links.get m := by
  rw [State.rederive]
  split
  next hdrops =>
    rw [State.dropDelivery_slot]
    refine if_neg ?_
    rintro ⟨hopen, rfl⟩
    rw [Bool.and_eq_true, Bool.not_eq_true'] at hdrops
    exact h rfl ⟨hopen, hdrops.2, hdrops.1⟩
  next => rfl

theorem State.drops_rederive_iff {l : Fin 8} : (s.rederive l).Drops i m ↔ l ≠ m ∧ s.Drops i m := by
  have hopen : (s.rederive l).ctrl.setWith .opened = s.ctrl.setWith .opened := (s.rederive_drops l).setWith .opened
  unfold State.Drops
  rw [hopen, State.rederive_links_get, State.rederive_plant]
  by_cases hl : l = m
  · subst hl
    simp only [if_true, ne_eq, not_true_eq_false, false_and, iff_false]
    rintro ⟨-, hbefore, hcovered⟩
    rw [hbefore] at hcovered
    cases hcovered
  · simp [hl]

/-- The slot of link `m` in set `i` stands as in `s`, and would stand were the link derived anew. -/
def State.KeepsSlot (s : State) (i : Fin 2) (m : Fin 8) (u : State) : Prop :=
  (u.ctrl.sets.get i).links.get m = (s.ctrl.sets.get i).links.get m ∧ ¬ u.Drops i m

theorem State.KeepsSlot.rederive {u : State} (h : s.KeepsSlot i m u) (l : Fin 8) : s.KeepsSlot i m (u.rederive l) :=
  ⟨(State.rederive_slot_of_not_drops fun _ => h.2).trans h.1, fun hd => h.2 (State.drops_rederive_iff.mp hd).2⟩

theorem State.rederiveAll_slot_of_not_drops (h : ¬ s.Drops i m) :
    (s.rederiveAll.ctrl.sets.get i).links.get m = (s.ctrl.sets.get i).links.get m := by
  have hkept := foldl_preserves (P := fun u => s.KeepsSlot i m u) (f := fun s l => s.rederive l)
    (fun u l hu => hu.rederive l) (indices 8) (s := s) ⟨rfl, h⟩
  unfold State.rederiveAll
  exact hkept.1

theorem State.rederiveAll_slot_of_drops (h : s.Drops i m) : (s.rederiveAll.ctrl.sets.get i).links.get m = none := by
  have hfold (ls : List (Fin 8)) (s : State) (h : s.Drops i m) (hm : m ∈ ls) :
      ((ls.foldl (fun s l => s.rederive l) s).ctrl.sets.get i).links.get m = none := by
    induction ls generalizing s with
    | nil => cases hm
    | cons l ls ih =>
      rw [List.foldl_cons]
      by_cases hl : l = m
      · subst hl
        refine foldl_preserves (P := fun u => (u.ctrl.sets.get i).links.get l = none) (fun u k hu => ?_) ls
          (State.rederive_slot_of_drops h)
        obtain hkept | ⟨-, hnone⟩ := (u.rederive_drops k).links i l
        · exact hkept.trans hu
        · exact hnone
      · exact ih _ (State.drops_rederive_iff.mpr ⟨hl, h⟩) ((List.mem_cons.mp hm).resolve_left (Ne.symm hl))
  unfold State.rederiveAll
  exact hfold _ _ h (mem_indices m)

end Drops

/-! ## The apply -/

/-- The state of an apply before its links are reset: the maps copied, changed sources cleared, furnaces retired. -/
def State.mapped (s : State) : State :=
  (({ s with plant := ⟨s.plant.staged, s.plant.staged, false⟩ } : State).clearChangedSources s.plant.active
    s.plant.staged).retireFurnaces s.plant.active s.plant.staged

theorem State.applyMap_banks (s : State) : s.applyMap.banks = s.mapped.banks := by
  simp [State.applyMap, State.mapped]

theorem State.applyMap_furnaces (s : State) : s.applyMap.furnaces = s.mapped.furnaces := by
  simp [State.applyMap, State.mapped]

theorem State.applyMap_ports (s : State) : s.applyMap.ports = s.mapped.ports.notify .committed := by
  simp [State.applyMap, State.mapped]

theorem State.retired_applyMap (h : s.activeBank.above = false) :
    State.Retired (Retires s.plant.active s.plant.staged) s s.mapped :=
  have hmapped := State.retired_retireFurnaces (s := ({ s with plant := ⟨s.plant.staged, s.plant.staged, false⟩ } :
    State).clearChangedSources s.plant.active s.plant.staged) s.plant.active s.plant.staged h
  ⟨hmapped.activeIdx, hmapped.otherBank, hmapped.rest, hmapped.above, hmapped.emptied, hmapped.account, hmapped.kept,
    hmapped.saturated, hmapped.notified, hmapped.silent⟩

end Retired

section Apply
variable {s : State}

/-- The state in which an apply derives the links anew. -/
def State.relinked (s : State) : State := s.mapped.resetChangedLinks s.plant.active s.plant.staged

theorem State.applyMap_eq (s : State) : s.applyMap = s.relinked.rederiveAll.notify .committed := rfl

theorem State.drops_relinked_iff {i : Fin 2} {l : Fin 8} : s.relinked.Drops i l ↔
    s.ctrl.setWith .opened = some i ∧ (s.links.get l).quarantined = false ∧
      covered (s.links.get l).flags s.plant.staged.global.quarantineMask = true := by
  have hctrl : s.relinked.ctrl = s.ctrl := by simp [State.relinked, State.mapped]
  have hplant : s.relinked.plant.active = s.plant.staged := by simp [State.relinked, State.mapped]
  have hlink : (s.relinked.links.get l).quarantined = (s.links.get l).quarantined ∧
      (s.relinked.links.get l).flags = (s.links.get l).flags := by
    simp only [State.relinked, State.resetChangedLinks, Tab.get_mapIdx, State.mapped, State.retireFurnaces_links,
      State.clearChangedSources_links]
    split <;> exact ⟨rfl, rfl⟩
  rw [State.Drops, hctrl, hplant, hlink.1, hlink.2]

theorem State.applyMap_slot_of_drops {i : Fin 2} {l : Fin 8} (h : s.relinked.Drops i l) :
    (s.applyMap.ctrl.sets.get i).links.get l = none := by
  rw [State.applyMap_eq, State.notify_ctrl]
  exact State.rederiveAll_slot_of_drops h

theorem State.applyMap_slot_of_not_drops {i : Fin 2} {l : Fin 8} (h : ¬ s.relinked.Drops i l) :
    (s.applyMap.ctrl.sets.get i).links.get l = (s.ctrl.sets.get i).links.get l := by
  have hctrl : s.relinked.ctrl = s.ctrl := by simp [State.relinked, State.mapped]
  rw [State.applyMap_eq, State.notify_ctrl, ← hctrl]
  exact State.rederiveAll_slot_of_not_drops h

theorem State.applyMap_point_changed {p : Fin 128}
    (h : (s.plant.active.points.get p).enabled ≠ (s.plant.staged.points.get p).enabled) :
    s.applyMap.sources.points.get p = (s.sources.points.get p).toUnset := by
  rw [State.applyMap_sources, Tab.get_mapIdx, if_pos (bne_iff_ne.mpr h)]

theorem State.applyMap_point_kept {p : Fin 128}
    (h : (s.plant.active.points.get p).enabled = (s.plant.staged.points.get p).enabled) :
    s.applyMap.sources.points.get p = s.sources.points.get p := by
  rw [State.applyMap_sources, Tab.get_mapIdx, if_neg (by simp [h])]

theorem State.applyMap_residue_changed {p : Fin 128}
    (h : (s.plant.active.points.get p).enabled ≠ (s.plant.staged.points.get p).enabled) :
    s.applyMap.residues.get p = 0 := by
  rw [State.applyMap_residues, Tab.get_mapIdx, if_pos (bne_iff_ne.mpr h)]

theorem State.applyMap_residue_kept {p : Fin 128}
    (h : (s.plant.active.points.get p).enabled = (s.plant.staged.points.get p).enabled) :
    s.applyMap.residues.get p = s.residues.get p := by
  rw [State.applyMap_residues, Tab.get_mapIdx, if_neg (by simp [h])]

theorem State.applyMap_line_changed {l : Fin 12}
    (h : (s.plant.active.lines.get l).enabled ≠ (s.plant.staged.lines.get l).enabled) :
    s.applyMap.sources.lines.get l = (s.sources.lines.get l).toUnset := by
  rw [State.applyMap_sources, Tab.get_mapIdx, if_pos (bne_iff_ne.mpr h)]

theorem State.applyMap_line_kept {l : Fin 12}
    (h : (s.plant.active.lines.get l).enabled = (s.plant.staged.lines.get l).enabled) :
    s.applyMap.sources.lines.get l = s.sources.lines.get l := by
  rw [State.applyMap_sources, Tab.get_mapIdx, if_neg (by simp [h])]

theorem State.applyMap_rx_changed {l : Fin 8}
    (h : (s.plant.active.links.get l).mode ≠ (s.plant.staged.links.get l).mode) :
    (s.applyMap.links.get l).rx = (s.links.get l).rx.modeChanged := by
  rw [State.applyMap_links_get, if_neg h]

theorem State.applyMap_rx_kept {l : Fin 8}
    (h : (s.plant.active.links.get l).mode = (s.plant.staged.links.get l).mode) :
    (s.applyMap.links.get l).rx = (s.links.get l).rx := by
  rw [State.applyMap_links_get, if_pos h]

theorem Controller.DropsOnly.eq_sets {c c' : Controller} (h : c.DropsOnly c') : c' = { c with sets := c'.sets } := by
  obtain ⟨hacc, hcurrent, hlast, hlatch, hlines, -, -, -, -, -⟩ := h
  obtain ⟨⟩ := c
  obtain ⟨⟩ := c'
  simp_all

end Apply

/-- Settles O23: each part of an apply by its own lemma. -/
theorem applyChangesRunningState : Obligations.ApplyChangesRunningState := by
  intro s habove old new t overflow
  have hretired := State.retired_applyMap habove
  have hover : (∃ f, Retires old new f ∧ s.overflowsAt f) ↔ overflow := by
    refine exists_congr fun f => ?_
    simp only [Retires, State.overflowsAt, exists_and_left, and_assoc]
    rfl
  have hbank : t.activeBank = s.mapped.activeBank := State.activeBank_congr s.applyMap_banks
  have hidx : t.activeIdx = s.activeIdx := (State.activeIdx_congr s.applyMap_banks).trans hretired.activeIdx
  have hdrops := s.applyMap_drops
  refine ⟨s.applyMap_plant, fun q => ?_, fun p hp => ?_, fun p hp => ?_, fun l hl => ?_, fun l hl => ?_,
    fun f hold hnew => ?_, fun f hf => ?_, hidx, ?_, ?_, ?_, fun ho q => ?_, fun ho q => ?_, fun l hl => ?_,
    fun i l => ⟨fun h => State.applyMap_slot_of_drops (State.drops_relinked_iff.mpr h),
      fun h => State.applyMap_slot_of_not_drops (mt State.drops_relinked_iff.mp h)⟩,
    fun i => ⟨hdrops.status i, hdrops.interval i, hdrops.lines i, hdrops.mark i⟩, fun l hl => ?_, fun l => ?_,
    hdrops.eq_sets, s.applyMap_engine, s.applyMap_working, s.applyMap_published, s.applyMap_store⟩
  · rw [State.applyMap_ports]
    exact Ports.has_notify_self ..
  · exact ⟨s.applyMap_point_changed hp, s.applyMap_residue_changed hp⟩
  · exact ⟨s.applyMap_point_kept hp, s.applyMap_residue_kept hp⟩
  · exact s.applyMap_line_changed hl
  · exact s.applyMap_line_kept hl
  · rw [hbank, hretired.account f ⟨hold, hnew⟩, s.applyMap_furnaces]
    refine ⟨hretired.emptied f ⟨hold, hnew⟩, rfl, fun c => ?_⟩
    rw [FurnaceRecord.takeNoPull, Kj.get_limit, Kj.get_add]
    rfl
  · rw [hbank, s.applyMap_furnaces]
    exact hretired.kept f hf
  · rw [s.applyMap_banks, hretired.otherBank]
  · rw [hbank]
    exact hretired.rest
  · rw [hbank, hretired.saturated, hover]
  · rw [s.applyMap_ports, hretired.notified (hover.mpr ho), Ports.notify_get, Ports.notify_get]
    simp only [PortUnit.notify, BitVec.or_assoc]
    rfl
  · rw [s.applyMap_ports, hretired.silent (mt hover.mp ho), Ports.notify_get]
    rfl
  · exact s.applyMap_rx_changed hl
  · exact s.applyMap_rx_kept hl
  · rw [s.applyMap_links_get]
    dsimp only
    split <;> exact ⟨rfl, rfl, rfl⟩

end Sys2Proof.Machine
end

section
/-! PROOFS. Closure and the start of a computation (R55 to R58, R111, R126) (O29). -/

namespace Sys2Proof.Machine

/-! ## The pending lags and the samples (R56, R111) -/

section Started
variable (begins : Bool) (a : State)

theorem State.applyPendingLags_furnace (f : Fin 4) : a.applyPendingLags.furnaces.get f = { a.furnaces.get f with
    lag := (a.furnaces.get f).pendingLag.getD (a.furnaces.get f).lag, pendingLag := none } := by
  refine (Tab.get_mapIdx ..).trans ?_
  obtain ⟨state, queue, lag, pendingLag⟩ := a.furnaces.get f
  cases pendingLag <;> rfl

/-- The start of a computation once a due commit has been applied: the pending lags where it begins a period, then the
quarantine states (R56, R111). -/
def State.startedFrom (begins : Bool) (a : State) : State :=
  (if begins then a.applyPendingLags else a).sampleQuarantine

theorem State.startedFrom_eq : a.startedFrom begins = { a with
    furnaces := (a.startedFrom begins).furnaces
    engine := { a.engine with quarantined := (a.startedFrom begins).engine.quarantined } } := by
  cases begins <;> rfl

theorem State.startedFrom_rest : (a.startedFrom begins).plant = a.plant ∧ (a.startedFrom begins).links = a.links ∧
    (a.startedFrom begins).ctrl = a.ctrl ∧ (a.startedFrom begins).sources = a.sources ∧
    (a.startedFrom begins).residues = a.residues ∧ (a.startedFrom begins).banks = a.banks ∧
    (a.startedFrom begins).ports = a.ports ∧ (a.startedFrom begins).working = a.working := by
  cases begins <;> exact ⟨rfl, rfl, rfl, rfl, rfl, rfl, rfl, rfl⟩

theorem State.startedFrom_engine : (a.startedFrom begins).engine =
    { a.engine with quarantined := (a.startedFrom begins).engine.quarantined } := by
  cases begins <;> rfl

theorem State.startedFrom_furnace (f : Fin 4) : (a.startedFrom begins).furnaces.get f = { a.furnaces.get f with
    lag := if begins then (a.furnaces.get f).pendingLag.getD (a.furnaces.get f).lag else (a.furnaces.get f).lag
    pendingLag := if begins then none else (a.furnaces.get f).pendingLag } := by
  cases begins with
  | false => rfl
  | true => exact a.applyPendingLags_furnace f

theorem State.startedFrom_quarantined (l : Fin 8) :
    (a.startedFrom begins).engine.quarantined.get l = (a.links.get l).quarantined := by
  cases begins <;> exact Tab.get_mapIdx ..

end Started

section Furnaces
variable {s : State} {f : Fin 4}

theorem State.applyMap_furnace_emptied (h : Retires s.plant.active s.plant.staged f) :
    s.applyMap.furnaces.get f = { s.furnaces.get f with queue := [] } := by
  rw [State.applyMap_furnaces]
  exact State.retireFurnaces_furnace_emptied h _

theorem State.applyMap_furnace_kept (h : ¬ Retires s.plant.active s.plant.staged f) :
    s.applyMap.furnaces.get f = s.furnaces.get f := by
  rw [State.applyMap_furnaces]
  exact State.retireFurnaces_furnace_kept h _

end Furnaces

/-- The state from which a computation starts: a due commit applied to the one begun. -/
def State.applied (i : Fin 2) (s : State) : State :=
  if s.commitDue then (s.beginComputation i).applyMap else s.beginComputation i

theorem State.startComputation_eq_startedFrom (s : State) (i : Fin 2) :
    s.startComputation i = (s.applied i).startedFrom s.beginsPeriod := rfl

section Applied
variable (s : State) (i : Fin 2)

theorem State.applied_drops : (s.beginComputation i).ctrl.DropsOnly (s.applied i).ctrl := by
  unfold State.applied
  split
  · exact State.applyMap_drops _
  · exact .refl _

theorem State.applied_engine : (s.applied i).engine = (s.beginComputation i).engine := by
  unfold State.applied
  split
  · exact State.applyMap_engine _
  · rfl

theorem State.applied_working : (s.applied i).working = (s.beginComputation i).working := by
  unfold State.applied
  split
  · exact State.applyMap_working _
  · rfl

theorem State.applied_furnace_lags (f : Fin 4) : ((s.applied i).furnaces.get f).lag = (s.furnaces.get f).lag ∧
    ((s.applied i).furnaces.get f).pendingLag = (s.furnaces.get f).pendingLag := by
  unfold State.applied
  split
  · by_cases hf : Retires s.plant.active s.plant.staged f
    · rw [State.applyMap_furnace_emptied (s := s.beginComputation i) hf]
      exact ⟨rfl, rfl⟩
    · rw [State.applyMap_furnace_kept (s := s.beginComputation i) hf]
      exact ⟨rfl, rfl⟩
  · exact ⟨rfl, rfl⟩

/-- The set whose computation starts loses no delivery: it is not OPEN. -/
theorem State.applied_set : (s.applied i).ctrl.sets.get i = { s.ctrl.sets.get i with status := .computing } := by
  have hbegun : (s.beginComputation i).ctrl.sets.get i = { s.ctrl.sets.get i with status := .computing } :=
    Tab.get_set_self ..
  have hdrops := s.applied_drops i
  have hstatus := hdrops.status i
  have hinterval := hdrops.interval i
  have hlines := hdrops.lines i
  have hmark := hdrops.mark i
  have hlinks : ((s.applied i).ctrl.sets.get i).links = ((s.beginComputation i).ctrl.sets.get i).links := by
    ext1 l
    obtain hkept | ⟨hopened, -⟩ := hdrops.links i l
    · exact hkept
    · rw [hbegun] at hopened
      cases hopened
  rw [← hbegun]
  generalize (s.applied i).ctrl.sets.get i = w at *
  generalize (s.beginComputation i).ctrl.sets.get i = v at *
  obtain ⟨⟩ := w
  obtain ⟨⟩ := v
  simp_all

end Applied

/-- The no-pull account of a retired furnace after an apply, in a state whose ACTIVE bank is within its 48 bits. -/
theorem State.applyMap_noPull {s : State} (habove : s.activeBank.above = false) {f : Fin 4}
    (h : Retires s.plant.active s.plant.staged f) (c : Carrier) : (s.applyMap.activeBank.furnaces.get f).noPull.get c =
      min ((s.activeBank.furnaces.get f).noPull.get c + (queueContent (s.furnaces.get f).queue).get c)
        Config.bankMax := by
  rw [State.activeBank_congr s.applyMap_banks, (State.retired_applyMap habove).account f h, FurnaceRecord.takeNoPull,
    Kj.get_limit, Kj.get_add]

/-- Settles O29: closure judged by the expected set, and a close by its two branches. -/
theorem openWindowClosesWhenAllAreIn : Obligations.OpenWindowClosesWhenAllAreIn := by
  refine ⟨fun s i hopened => ?_, fun s i hopened => ?_⟩
  · exact ⟨State.judgeClosure_of_not_all false hopened, State.judgeClosure_of_all false hopened⟩
  intro w old new due t
  refine ⟨fun hbusy => State.closeWindow_waits (.inl (State.busy_of_setWith_ne_none hbusy)), fun hidle => ?_⟩
  intro begun startsFrom
  let closed : State := { s with ctrl := { s.ctrl with lastClosed := w.interval } }
  have ht : t = (closed.applied i).startedFrom s.beginsPeriod :=
    State.closeWindow_starts (State.busy_of_setWith_none hidle) (.inl rfl)
  have hdue : s.commitDue = true ↔ due := State.commitDue_iff
  have happlied (h : due) : closed.applied i = begun.applyMap := if_pos (hdue.mpr h)
  have hbegun (h : ¬ due) : closed.applied i = begun := if_neg (mt hdue.mp h)
  obtain ⟨hplant, hlinks, hctrl, hsources, hresidues, hbanks, hports, hworking⟩ :=
    State.startedFrom_rest s.beginsPeriod (closed.applied i)
  have hengine := State.startedFrom_engine s.beginsPeriod (closed.applied i)
  have hquarantined := State.startedFrom_quarantined s.beginsPeriod (closed.applied i)
  have hfurnace := State.startedFrom_furnace s.beginsPeriod (closed.applied i)
  have hrest := State.startedFrom_eq s.beginsPeriod (closed.applied i)
  rw [← ht] at hplant hlinks hctrl hsources hresidues hbanks hports hworking hengine hquarantined hfurnace hrest
  rw [closed.applied_engine i] at hengine
  have hset := closed.applied_set i
  rw [← hctrl] at hset
  have hdrops := closed.applied_drops i
  rw [← hctrl] at hdrops
  have hstarts : startsFrom (closed.applied i) :=
    ⟨hrest, fun f => by rw [hfurnace f], hquarantined⟩
  have hlags := closed.applied_furnace_lags i
  refine ⟨fun h => happlied h ▸ hstarts, fun h => hbegun h ▸ hstarts, ?_, ?_, ?_, ?_, ?_, hdrops.lastClosed, hdrops.acc,
    hdrops.current, ?_, ?_, ?_, fun f => ?_, fun l => ?_, ?_, fun h => ?_, fun h => ?_, fun f => ?_⟩
  · rw [hset]
  · rw [hset]
  · rw [hset]
  · rw [hset]
  · rw [hset]
  · rw [hengine]; rfl
  · rw [hengine]; rfl
  · rw [hengine]; rfl
  · rw [hengine]; exact Tab.get_mapIdx ..
  · rw [hquarantined, hlinks]
  · rw [hworking, closed.applied_working i]; rfl
  · rw [happlied h] at hplant hlinks hsources hresidues hbanks hports hfurnace
    refine ⟨hplant.trans begun.applyMap_plant, fun q => ?_, fun p hp => ?_, fun p hp => ?_, fun l hl => ?_, fun l hl => ?_,
      fun f hold hnew => ⟨?_, fun habove c => ?_⟩, fun f hf => ?_, fun l hl => ?_, fun l hl => ?_⟩
    · rw [hports, State.applyMap_ports]
      exact Ports.has_notify_self ..
    · rw [hsources, hresidues]
      exact ⟨begun.applyMap_point_changed hp, begun.applyMap_residue_changed hp⟩
    · rw [hsources, hresidues]
      exact ⟨begun.applyMap_point_kept hp, begun.applyMap_residue_kept hp⟩
    · rw [hsources]
      exact begun.applyMap_line_changed hl
    · rw [hsources]
      exact begun.applyMap_line_kept hl
    · rw [hfurnace, State.applyMap_furnace_emptied (s := begun) ⟨hold, hnew⟩]
    · rw [State.activeBank_congr hbanks]
      exact State.applyMap_noPull (s := begun) habove ⟨hold, hnew⟩ c
    · rw [hfurnace, State.applyMap_furnace_kept (s := begun) hf]
    · rw [hlinks]
      exact begun.applyMap_rx_changed hl
    · rw [hlinks]
      exact begun.applyMap_rx_kept hl
  · rw [hbegun h] at hplant hlinks hsources hbanks hports
    exact ⟨hplant, hlinks, hsources, hbanks, hports⟩
  · rw [hfurnace, (hlags f).1, (hlags f).2]
    simp only [State.beginsPeriod, beq_iff_eq]
    exact ⟨rfl, rfl⟩

end Sys2Proof.Machine
end

section
/-! PROOFS. Bits on the wires: the bytes of a transaction, the bits of a link word, and what a port sends (R161, R162, R166, 13.1,
13.4) (O2). -/

namespace Sys2Proof.Machine

/-! ## Bits and bytes (R161, 13.1) -/

/-- The low bits of a number, the lowest first, make the number up to their count. -/
theorem foldr_testBit (n x : Nat) :
    ((List.range n).map x.testBit).foldr (fun b v => 2 * v + b.toNat) 0 = x % 2 ^ n := by
  induction n generalizing x with
  | zero => simp [Nat.mod_one]
  | succ n ih =>
    have hhigh : (List.range n).map (x.testBit ∘ Nat.succ) = (List.range n).map (x / 2).testBit := by
      simp only [Function.comp_def, Nat.succ_eq_add_one, Nat.testBit_succ]
    have hlow : (x.testBit 0).toNat = x % 2 := by
      obtain h | h := Nat.mod_two_eq_zero_or_one x <;> simp [h]
    rw [List.range_succ_eq_map, List.map_cons, List.map_map, hhigh, List.foldr_cons, ih, hlow, Nat.pow_succ', Nat.mod_mul,
      Nat.add_comm]

theorem byte_of_bitsOfByte (b : Byte) :
    BitVec.ofNat 8 ((bitsOfByte b).foldl (fun v b => 2 * v + b.toNat) 0) = b := by
  have hbits : (bitsOfByte b).reverse = (List.range 8).map b.toNat.testBit := rfl
  rw [List.foldl_eq_foldr_reverse, hbits]
  apply BitVec.eq_of_toNat_eq
  rw [foldr_testBit, BitVec.toNat_ofNat, Nat.mod_mod, Nat.mod_eq_of_lt b.isLt]

theorem bytesOfBits_cut {cut : List Bool} (h : cut.length < 8) : bytesOfBits cut = [] := by
  rw [← List.length_eq_zero_iff, bytesOfBits_length]
  omega

theorem bytesOfBits_bitsOfBytes (bs : List Byte) {cut : List Bool} (h : cut.length < 8) :
    bytesOfBits (bitsOfBytes bs ++ cut) = bs := by
  induction bs with
  | nil => exact bytesOfBits_cut h
  | cons b bs ih =>
    have hbits : bitsOfBytes (b :: bs) ++ cut = bitsOfByte b ++ (bitsOfBytes bs ++ cut) := List.append_assoc ..
    have hbyte : bytesOfBits (bitsOfByte b ++ (bitsOfBytes bs ++ cut)) =
        BitVec.ofNat 8 ((bitsOfByte b).foldl (fun v b => 2 * v + b.toNat) 0) :: bytesOfBits (bitsOfBytes bs ++ cut) := rfl
    rw [hbits, hbyte, ih, byte_of_bitsOfByte]

theorem linkWordOfBits_bitsOfLinkWord (w : LinkWord) : linkWordOfBits (bitsOfLinkWord w) = some w := by
  have hbits : ((indices 16).map fun i => w.data.getLsbD i.val) = (List.range 16).map w.data.toNat.testBit := rfl
  have hdata : BitVec.ofNat 16 (((indices 16).map fun i => w.data.getLsbD i.val).foldr (fun b v => 2 * v + b.toNat) 0) =
      w.data := by
    apply BitVec.eq_of_toNat_eq
    rw [hbits, foldr_testBit, BitVec.toNat_ofNat, Nat.mod_mod, Nat.mod_eq_of_lt w.data.isLt]
  obtain ⟨data, s, e, p, stop⟩ := w
  exact congrArg (fun d => some (⟨d, s, e, p, stop⟩ : LinkWord)) hdata

/-! ## The command a transaction spells (13.4) -/

theorem decodeTransaction_commandCode (p : Port) (wpN : Bool) (c : Command) (args : List Byte) :
    decodeTransaction p wpN (commandCode c :: args) = some (instrOfCommand c ⟨p, args⟩ wpN) := by
  simp only [decodeTransaction, commandOfCode_commandCode]

theorem decodeTransaction_of_unknown {b : Byte} (h : commandOfCode b = none) (p : Port) (wpN : Bool) (args : List Byte) :
    decodeTransaction p wpN (b :: args) = some (.unknown b ⟨p, args⟩) := by
  simp only [decodeTransaction, h]

/-- A term with bits is a named command with its own level of WP_N, or an unknown one. -/
theorem portCommand_cases {i : Instr} {code : Byte} {t : Transfer} (h : portCommand i = some (code, t)) :
    (∃ c, code = commandCode c ∧ i = instrOfCommand c t (wpNOf i)) ∨ i = .unknown code t := by
  cases i with
  | readStatus r =>
    obtain ⟨t', part⟩ := r
    cases part with
    | whole => cases h; exact .inl ⟨.readStatus, rfl, rfl⟩
    | first | further | last => cases h
  | readBankRecord r =>
    obtain ⟨t', moment⟩ := r
    cases moment with
    | inTurn => cases h; exact .inl ⟨.readBankRecord, rfl, rfl⟩
    | beforeSwap => cases h
  | unknown code' t' => cases h; exact .inr rfl
  | imark | linkWord | pinReset | startUpReadDone | imageByteWrite | saveComplete | loadComplete | reconciliationStage
  | conversionStage | residenceQueueStage | furnaceSplit | poolSplit | totalsStage | completion => cases h
  | readId | readNotices | readResult | readPointState | readQueue | readLinkStatus | readStagedEntry | readActiveEntry
  | readStore | clearNotices | setNoticeMask | setFurnaceState | setLag | lineTally | setLineState | writeStagedEntry
  | commit | discardStaged | startAccounting | stopAccounting | closePeriod | accountingReset | clearLinkCounters
  | injectWords | saveImage | loadImage | setStoreProtect => cases h; exact .inl ⟨_, rfl, rfl⟩

theorem decodeTransaction_portCommand {i : Instr} {code : Byte} {t : Transfer} (hformed : wellFormed i = true)
    (h : portCommand i = some (code, t)) : decodeTransaction t.port (wpNOf i) (code :: t.bytes) = some i := by
  obtain ⟨c, rfl, hi⟩ | rfl := portCommand_cases h
  · exact (decodeTransaction_commandCode ..).trans (congrArg some hi.symm)
  · exact decodeTransaction_of_unknown (Option.isNone_iff_eq_none.mp hformed) ..

/-! ## The level on SDO (R161) -/

/-- A run that begins with CS_N high, or within a transaction, ends with no transaction only where CS_N is high. -/
theorem Serial.run_idle (ps : List PinSample) {x : Serial} (hx : ∀ c, x = .idle c → c = true) {c : Bool}
    (h : (x.run ps).1 = .idle c) : c = true := by
  induction ps generalizing x with
  | nil => exact hx c h
  | cons p ps ih =>
    refine ih (x := (x.next p).1) (fun c' hc' => ?_) h
    cases x with
    | idle csN =>
      obtain rfl := hx csN rfl
      cases hp : p.csN <;> simp_all [Serial.next]
    | active mode sck bits falls => cases hp : p.csN <;> simp_all [Serial.next]

/-- No more falling edges than bits sampled, so what is sent reaches that far. -/
theorem Serial.run_falls_le {ps : List PinSample} {mode : SpiMode} {sck : Bool} {bits : List Bool} {falls : Nat}
    (h : ((Serial.idle true).run ps).1 = .active mode sck bits falls) :
    falls ≤ bits.length + (mode == .mode3).toNat := by
  have hedges := Serial.run_edges ps mode sck bits falls _ (fun _ _ _ _ hx => by cases hx) h
  omega

section SdoLevel
variable (p : Port) (wpN : Bool) (s : State) {bits : List Bool} {k : Nat}

theorem State.reply_bit (h : k ≤ bits.length) : (bitsOfBytes (s.reply p wpN (bytesOfBits bits)))[k]? =
    some (((s.reply p wpN (bytesOfBits bits)).getD (k / 8) 0).getLsbD (7 - k % 8)) := by
  refine bitsOfBytes_getElem? _ k ?_
  rw [State.reply_length, bytesOfBits_length]
  omega

theorem State.sdoLevel_mode0 (sck : Bool) (h : k ≤ bits.length) : s.sdoLevel p wpN (.active .mode0 sck bits k) =
    .bit (((s.reply p wpN (bytesOfBits bits)).getD (k / 8) 0).getLsbD (7 - k % 8)) := by
  simp only [State.sdoLevel, Serial.received, Serial.sdo, State.reply_bit p wpN s h]

theorem State.sdoLevel_mode3 (sck : Bool) (h : k ≤ bits.length) : s.sdoLevel p wpN (.active .mode3 sck bits (k + 1)) =
    .bit (((s.reply p wpN (bytesOfBits bits)).getD (k / 8) 0).getLsbD (7 - k % 8)) := by
  simp only [State.sdoLevel, Serial.received, Serial.sdo, State.reply_bit p wpN s h]

end SdoLevel

/-! ## The bytes a port sends (R161, R162, R166) -/

section Reply
variable {p : Port} {wpN : Bool} {s : State} {args : List Byte}

/-- The first entries of a list, with a value after its end. -/
theorem map_range_getD {α : Type} (l : List α) (d : α) (m : Nat) :
    ((List.range m).map fun k => l.getD k d) = (l ++ List.replicate m d).take m := by
  refine List.ext_getElem (by simp) fun k hk _ => ?_
  simp only [List.length_map, List.length_range] at hk
  by_cases hl : k < l.length
  · simp [List.getElem_append_left hl, hl]
  · simp [List.getElem_append_right (Nat.le_of_not_lt hl), hl]

theorem State.reply_cons (h : (s.ports.get p).decoder = none) (b : Byte) (args : List Byte) :
    s.reply p wpN (b :: args) =
      s.status p :: (List.range (args.length + 1)).map fun k => s.nextByte p wpN (b :: args.take k) := by
  simp only [State.reply, h, Option.isSome_none, Bool.false_eq_true, if_false, List.getD_nil, List.length_cons]
  rw [List.range_succ_eq_map, List.map_cons, List.map_map]
  rfl

theorem State.nextByte_unknown {b : Byte} (h : commandOfCode b = none) :
    s.nextByte p wpN (b :: args) = Config.freeByte (s.freeIdx + args.length) := by
  simp only [State.nextByte, h]

theorem State.nextByte_readStatus : s.nextByte p wpN (commandCode .readStatus :: args) = s.status p := by
  simp [State.nextByte]

theorem State.nextByte_write_or_short {c : Command} (hstatus : c ≠ .readStatus)
    (h : isWrite c = true ∨ args.length < selectorCount c) : s.nextByte p wpN (commandCode c :: args) = 0xFF := by
  simp only [State.nextByte, commandOfCode_commandCode, if_neg hstatus]
  exact if_pos (by simpa using h)

theorem State.nextByte_read {c : Command} (hstatus : c ≠ .readStatus) (hread : isWrite c = false)
    (h : selectorCount c ≤ args.length) : s.nextByte p wpN (commandCode c :: args) =
      (s.readBuffer p (instrOfCommand c ⟨p, args⟩ wpN)).getD (args.length - selectorCount c) 0xFF := by
  simp only [State.nextByte, commandOfCode_commandCode, if_neg hstatus]
  exact if_neg (by simpa [hread] using h)

/-- The copy that a read command makes, from the bytes after its command byte. -/
def readCopy (p : Port) (wpN : Bool) (c : Command) (b : List Byte) (s : State) : Copy :=
  match c with
  | .readId => .ok (idCopy p)
  | .readNotices => .ok (noticesCopy (s.ports.get p))
  | .readResult => resultCopy s (natAt b 0) (natAt b 1) (byteAt b 2)
  | .readBankRecord => bankCopy s (natAt b 0) (natAt b 1) (natAt b 2) (byteAt b 3)
  | .readPointState => pointStateCopy s (natAt b 0) (natAt b 1)
  | .readQueue => queueCopy s (natAt b 0) (natAt b 1)
  | .readLinkStatus => linkStatusCopy s (natAt b 0)
  | .readStagedEntry => entryCopy s.plant.staged (natAt b 0) (natAt b 1)
  | .readActiveEntry => entryCopy s.plant.active (natAt b 0) (natAt b 1)
  | .readStore => storeCopy s wpN (natAt b 0)
  | _ => .ok []

theorem exec_read_eq {c : Command} (hread : isWrite c = false) (hstatus : c ≠ .readStatus) (p : Port) (args : List Byte)
    (wpN : Bool) (s : State) : exec (instrOfCommand c ⟨p, args⟩ wpN) s =
      .next (readTransaction c ⟨p, args⟩ (c == .readId) (readCopy p wpN c) s) := by
  cases c with
  | readStatus => exact absurd rfl hstatus
  | readId | readNotices | readResult | readBankRecord | readPointState | readQueue | readLinkStatus | readStagedEntry
  | readActiveEntry | readStore => rfl
  | _ => exact nomatch hread

/-- A copy depends on the selector bytes alone. -/
theorem readCopy_take {c : Command} {k : Nat} (h : selectorCount c ≤ k) (b : List Byte) :
    readCopy p wpN c (b.take k) s = readCopy p wpN c b s := by
  cases c with
  | readResult | readBankRecord | readPointState | readQueue | readLinkStatus | readStagedEntry | readActiveEntry
  | readStore =>
    simp only [selectorCount] at h
    simp (disch := omega) only [readCopy, natAt_take, byteAt_take]
  | _ => rfl

theorem readTransaction_buffer {c : Command} {t : Transfer} {taken : Bool} {f : List Byte → State → Copy}
    (h : lengthSuits c (1 + t.bytes.length) = true) : ((readTransaction c t taken f s).ports.get t.port).buffer =
      ((s.ports.get t.port).afterRead (judgeRead taken (f t.bytes s) s)).buffer := by
  simp [readTransaction, transactionOf, h, State.onPort, PortUnit.close]

theorem State.readBuffer_eq {c : Command} (hread : isWrite c = false) (hstatus : c ≠ .readStatus)
    (h : selectorCount c ≤ args.length) : s.readBuffer p (instrOfCommand c ⟨p, args⟩ wpN) =
      ((s.ports.get p).afterRead (judgeRead (c == .readId) (readCopy p wpN c args s) s)).buffer := by
  unfold State.readBuffer
  rw [exec_read_eq hread hstatus]
  exact readTransaction_buffer (t := ⟨p, args⟩) ((lengthSuits_read hread _).mpr h)

/-- The buffer stands from the last selector byte on. -/
theorem State.readBuffer_take {c : Command} {k : Nat} (hread : isWrite c = false) (hstatus : c ≠ .readStatus)
    (hsel : selectorCount c ≤ k) (hk : k ≤ args.length) :
    s.readBuffer p (instrOfCommand c ⟨p, args.take k⟩ wpN) = s.readBuffer p (instrOfCommand c ⟨p, args⟩ wpN) := by
  rw [State.readBuffer_eq hread hstatus (by rw [List.length_take]; omega),
    State.readBuffer_eq hread hstatus (hsel.trans hk), readCopy_take hsel]

/-- The bytes sent with the whole bytes received are all but the next one. -/
theorem State.readSent_take {sel n : Nat} (h : sel ≤ n) (buffer : List Byte) :
    (s.readSent p sel (n + 1 - sel) buffer).take (n + 1) = s.readSent p sel (n - sel) buffer := by
  rw [State.readSent, State.readSent, ← map_range_getD, ← map_range_getD, List.cons_append, List.take_succ_cons,
    List.take_append, List.length_replicate, List.take_of_length_le (by simpa using h), ← List.map_take, List.take_range,
    Nat.min_eq_left (by omega)]
  rfl

section Idle
variable (h : (s.ports.get p).decoder = none)
include h

theorem State.reply_unknown {b : Byte} (hb : commandOfCode b = none) (args : List Byte) : s.reply p wpN (b :: args) =
    s.status p :: (List.range (args.length + 1)).map fun k => Config.freeByte (s.freeIdx + k) := by
  rw [State.reply_cons h]
  refine congrArg _ (List.map_congr_left fun k hk => ?_)
  rw [State.nextByte_unknown hb, List.length_take, Nat.min_eq_left (Nat.le_of_lt_succ (List.mem_range.mp hk))]

theorem State.reply_readStatus (args : List Byte) :
    s.reply p wpN (commandCode .readStatus :: args) = List.replicate (args.length + 2) (s.status p) := by
  rw [State.reply_cons h]
  simp only [State.nextByte_readStatus, List.map_const', List.length_range]
  rfl

theorem State.reply_write_or_short {c : Command} (hstatus : c ≠ .readStatus)
    (hc : isWrite c = true ∨ args.length < selectorCount c) :
    s.reply p wpN (commandCode c :: args) = s.status p :: List.replicate (args.length + 1) 0xFF := by
  have hbyte (k : Nat) : s.nextByte p wpN (commandCode c :: args.take k) = 0xFF :=
    State.nextByte_write_or_short hstatus (hc.imp_right fun hlt => (List.length_take_le' k args).trans_lt hlt)
  rw [State.reply_cons h]
  simp only [hbyte, List.map_const', List.length_range]

theorem State.reply_read {c : Command} (hread : isWrite c = false) (hstatus : c ≠ .readStatus)
    (hsel : selectorCount c ≤ args.length) : s.reply p wpN (commandCode c :: args) =
      s.readSent p (selectorCount c) (args.length + 1 - selectorCount c)
        (s.readBuffer p (instrOfCommand c ⟨p, args⟩ wpN)) := by
  have hlength : args.length + 1 = selectorCount c + (args.length + 1 - selectorCount c) := by omega
  have hbefore : (List.range (selectorCount c)).map (fun k => s.nextByte p wpN (commandCode c :: args.take k)) =
      List.replicate (selectorCount c) 0xFF := by
    refine (List.map_congr_left (g := fun _ => 0xFF) fun k hk => ?_).trans (by simp)
    exact State.nextByte_write_or_short hstatus (.inr ((List.length_take_le k args).trans_lt (List.mem_range.mp hk)))
  have hafter : (List.range (args.length + 1 - selectorCount c)).map
      (fun k => s.nextByte p wpN (commandCode c :: args.take (selectorCount c + k))) =
      (List.range (args.length + 1 - selectorCount c)).map fun k =>
        (s.readBuffer p (instrOfCommand c ⟨p, args⟩ wpN)).getD k 0xFF := by
    refine List.map_congr_left fun k hk => ?_
    have hk' := List.mem_range.mp hk
    have hcount : (args.take (selectorCount c + k)).length = selectorCount c + k := by
      rw [List.length_take]
      omega
    rw [State.nextByte_read hstatus hread (by omega), State.readBuffer_take hread hstatus (by omega) (by omega), hcount,
      Nat.add_sub_cancel_left]
  rw [State.reply_cons h, State.readSent, ← map_range_getD, ← hafter]
  conv_lhs => rw [hlength]
  rw [List.range_add, List.map_append, hbefore, List.map_map]
  rfl

/-- The bytes a port records of a command are those of the reply that went with whole bytes. -/
theorem State.sent_of_command (c : Command) (args : List Byte) : ∃ t, exec (instrOfCommand c ⟨p, args⟩ wpN) s = .next t ∧
    (t.ports.get p).sent = (s.reply p wpN (commandCode c :: args)).take (args.length + 1) := by
  by_cases hstatus : c = .readStatus
  · subst hstatus
    refine ⟨_, (readStatusAndReadIdAlwaysAnswer.1 p args s).1, ?_⟩
    rw [State.reply_readStatus h, List.take_replicate, Nat.min_eq_left (Nat.le_succ _), Nat.add_comm]
    simp only [State.onPort, Ports.get_put_self]
    rfl
  · cases hwrite : isWrite c with
    | true =>
      obtain ⟨o, hexec⟩ := exec_instrOfCommand_write hwrite ⟨p, args⟩ wpN s
      refine ⟨_, hexec, (writeTransaction_sent ..).trans ?_⟩
      rw [State.reply_write_or_short h hstatus (.inl hwrite)]
      simp [State.writeSent]
    | false =>
      refine ⟨_, exec_read_eq hwrite hstatus p args wpN s, (readTransaction_sent ..).trans ?_⟩
      by_cases hsel : selectorCount c ≤ args.length
      · rw [if_pos ((lengthSuits_read hwrite _).mpr hsel), State.reply_read h hwrite hstatus hsel,
          State.readBuffer_eq hwrite hstatus hsel, readTransaction_buffer ((lengthSuits_read hwrite _).mpr hsel),
          State.readSent_take hsel]
      · rw [if_neg (mt (lengthSuits_read hwrite _).mp hsel), State.reply_write_or_short h hstatus (.inr (Nat.lt_of_not_le hsel))]
        simp [State.writeSent]

theorem State.sent_of_unknown {b : Byte} (hb : commandOfCode b = none) (args : List Byte) :
    ∃ t, exec (.unknown b ⟨p, args⟩) s = .next t ∧
      (t.ports.get p).sent = (s.reply p wpN (b :: args)).take (args.length + 1) := by
  have hexec : exec (.unknown b ⟨p, args⟩) s = .next ((s.drawFree (args.length + 1)).2.onPort p fun u =>
      (u.record (.result .unknown)).close (s.status p :: (s.drawFree (args.length + 1)).1.take args.length)) := by
    rw [exec, execUnknown, hb]
  refine ⟨_, hexec, ?_⟩
  rw [State.reply_unknown h hb, List.take_succ_cons]
  simp [State.onPort, PortUnit.close, State.drawFree]

end Idle

/-- The bytes of a READ STATUS in progress: those of its earlier stretches stand (R162). -/
theorem State.reply_in_progress (h : (s.ports.get p).decoder ≠ none)
    (hsent : (s.ports.get p).sent.length ≤ args.length + 1) : s.reply p wpN (commandCode .readStatus :: args) =
      (s.ports.get p).sent ++
        List.replicate (args.length + 2 - (s.ports.get p).sent.length) (s.status p) := by
  have hbyte (k : Nat) : s.nextByte p wpN ((commandCode .readStatus :: args).take k) = s.status p := by
    cases k with
    | zero => rfl
    | succ k => exact State.nextByte_readStatus
  simp only [State.reply, Option.isSome_iff_ne_none.mpr h, if_true, hbyte, map_range_getD, List.length_cons]
  rw [List.take_append, List.take_of_length_le (by omega), List.take_replicate, Nat.min_eq_left (by omega)]

end Reply

/-- Settles O2: the bits both ways, the level on SDO bit by bit, and the reply byte by byte. -/
theorem transactionBitsDecodeToTheirCommand : Obligations.TransactionBitsDecodeToTheirCommand := by
  refine ⟨fun i code t cut hformed hcommand hcut => ⟨?_, ?_⟩, fun p wpN cut hcut => ?_, linkWordOfBits_bitsOfLinkWord,
    fun p wpN ps s => ⟨fun csN hx => ?_, fun sck bits falls hx => ?_, fun sck bits hx => ?_, fun sck bits falls hx => ?_⟩,
    fun p wpN s h => ⟨?_, fun b args hb => State.reply_unknown h hb args, State.reply_readStatus h, fun c args hc => ?_,
      fun c args hread hstatus hsel => ?_, fun received i hi => ?_⟩,
    fun p wpN args s h hsent => State.reply_in_progress h hsent⟩
  · rw [encodeTransaction, hcommand]; rfl
  · rw [bytesOfBits_bitsOfBytes _ hcut, decodeTransaction_portCommand hformed hcommand]
  · rw [bytesOfBits_cut hcut]; rfl
  · obtain rfl := Serial.run_idle ps (fun c hc => (Serial.idle.inj hc).symm) hx
    rw [hx]
    rfl
  · rw [hx]
    exact State.sdoLevel_mode0 p wpN s sck (Serial.run_falls_le hx)
  · rw [hx]
    rfl
  · rw [hx]
    exact State.sdoLevel_mode3 p wpN s sck (Nat.le_of_succ_le_succ (Serial.run_falls_le hx))
  · simp [State.reply, h, State.nextByte]
  · refine State.reply_write_or_short h ?_ (hc.imp_right (·.2))
    rintro rfl
    exact hc.elim nofun fun hc => hc.1 rfl
  · refine ⟨_, exec_read_eq hread hstatus p args wpN s, (State.reply_read h hread hstatus hsel).trans ?_⟩
    rw [State.readBuffer_eq hread hstatus hsel,
      ← readTransaction_buffer (t := ⟨p, args⟩) ((lengthSuits_read hread _).mpr hsel)]
  · cases received with
    | nil => cases hi
    | cons b args =>
      cases hb : commandOfCode b with
      | none =>
        rw [decodeTransaction_of_unknown hb] at hi
        obtain rfl := Option.some.inj hi
        exact State.sent_of_unknown h hb args
      | some c =>
        obtain rfl : commandCode c = b := by simpa using List.find?_some hb
        rw [decodeTransaction_commandCode] at hi
        obtain rfl := Option.some.inj hi
        exact State.sent_of_command h c args

end Sys2Proof.Machine
end
